-- ==== Sys2Proof/Word.lean ====
section
/-!
DEFINITION. The word types, and the small closed types that operands of commands and fields of the
state share. Plain data only; every type has decidable equality.
-/

namespace Sys2Proof

/-- A 32-bit word of a parameter block, a status block or a packet payload (R310, R330). -/
abbrev Word := BitVec 32

/-- A byte of a packet, of a cargo frame or of the flash. -/
abbrev Byte := BitVec 8

/-- A sparse table: keys strictly rising, no entry equal to what an unlisted key reads as. -/
abbrev Tab (α : Type) := List (Nat × α)

/-- The device states of R30. -/
inductive DevState where
  | boot | idle | armed | run | hold | safe | recovery
  deriving DecidableEq, Repr

/-- Where a request came from, and so where its reply goes (R354, R316): the command port, the
stream link's CTRL stream, or the cascade ring. -/
inductive Origin where
  | cmdPort | link | ring
  deriving DecidableEq, Repr

/-- A request packet as the interpreter meets it (R310): its header fields, its payload (LEN is the
payload's length) and whether its CRC is the CRC of its bytes. -/
structure Req where
  org : Origin
  seq : Byte
  flags : Byte
  dest : Byte
  payload : List Word
  crcOk : Bool
  deriving DecidableEq, Repr

/-- The clock domains a boundary token crosses (R25). -/
inductive ClkDom where
  | sup | smp | cnv | core | str | cxk | lnk | apc | hkd
  deriving DecidableEq, Repr

/-- The four monitored clocks of R415. -/
inductive Clk where
  | refclk | lrefclk | aprefclk | hkxtal
  deriving DecidableEq, Repr

/-- The memories of R130, and the stack memory of R157. -/
inductive EccMem where
  | localMem | queueMem | sharedMem | stackMem
  deriving DecidableEq, Repr

/-- What a cell's latch holds at the ramp's end (R78, R79): nothing yet, an 11-bit Gray code, or a
comparator that had already switched at the ramp's start. -/
inductive Latch where
  | none
  | gray (g : BitVec 11)
  | before
  deriving DecidableEq, Repr

/-- The status bit a flash declares for polling (R301): write in progress of the status register, or the flag status
register's. -/
inductive PollBit where
  | wip | flag
  deriving DecidableEq, Repr

/-- What the boot ROM finds in the flash's discovery table (R301). Times are in µs, none where not declared. -/
structure FlashTable where
  sigOk : Bool
  /-- log2 of the density in bytes -/
  dens : Nat
  erase4k : Bool
  erase64k : Bool
  page256 : Bool
  /-- entry into 4-byte addressing by 0xB7 declared -/
  addr4 : Bool
  /-- suspend and resume declared -/
  susp : Bool
  /-- the 1-4-4 fast read: instruction, mode clocks, dummy clocks -/
  fastInst : Nat
  fastMode : Nat
  fastDummy : Nat
  /-- quad-enable method, by its code in the table -/
  quadMethod : Nat
  /-- greatest times of a page program, a 4 KiB and a 64 KiB erase -/
  progUs : Option Nat
  erase4kUs : Option Nat
  erase64kUs : Option Nat
  poll : PollBit
  /-- soft-reset method, by its code in the table, and its time -/
  resetMethod : Nat
  resetUs : Option Nat
  deriving DecidableEq, Repr

/-- The schedule events of R398, with the DEVTIME (ns) at which each acts. -/
inductive SchedEvent where
  /-- T_f of the first frame -/
  | anchor (act : Nat)
  /-- X + LEAD of a grid crossing -/
  | cross (act : Nat)
  /-- G, the next frame's number, T_f -/
  | frameEnd (act frame tf : Nat)
  deriving DecidableEq, Repr

/-- What a slave acknowledges (R397, R441). -/
inductive AckKind where
  | timeSet | fullCheck (ok : Bool) | pendingRecord | confirm (ok : Bool)
  deriving DecidableEq, Repr

/-- One device's entry in a returned ENUM message (R396). -/
structure EnumEntry where
  idx : Nat
  role : Bool
  die : Nat
  deriving DecidableEq, Repr

/-- What an NVMe completion brings with it (R370, R373): nothing, an Identify result, the health
log, or the metadata a mount reads. -/
inductive NvmeData where
  | none
  /-- namespace active; bytes of a logical block; metadata size; protection on; size in bytes -/
  | namespaceId (active : Bool) (lba metaSz : Nat) (prot : Bool) (bytes : Nat)
  /-- Percentage Used, Critical Warning -/
  | health (pct crit : Nat)
  /-- Identify controller: the longest transfer in bytes, 0 for no limit (R370) -/
  | controller (mdts : Nat)
  /-- Set Features, Number of Queues: I/O queue pairs granted (R370) -/
  | granted (pairs : Nat)
  /-- the bytes a Read brings -/
  | bytes (b : List Byte)
  deriving DecidableEq, Repr

/-- The content bytes of a received TRAIN block (R348). -/
structure TrainBlock where
  stage : Nat
  rxReady : Bool
  ack : Bool
  lane : Nat
  rate : Nat
  lanesM1 : Nat
  reqPre : Nat
  reqPost : Nat
  tgt : Nat
  deriving DecidableEq, Repr

/-- The content bytes of a received ALIGN marker (R348). -/
structure AlignBlock where
  lane : Nat
  lanes : Nat
  lfn : Nat
  fofs : Nat
  mask : Nat
  deriving DecidableEq, Repr

end Sys2Proof
end

