-- ==== Sys2Proof/Syntax.lean ====
section
/-!
DEFINITION. The commands of the block: one constructor for each row of spec/opcode_table.json.

Operands. `q` is a request packet. `t` is a time in SMP cycles of DEVTIME (0.2 ns, R63). `sid` names a
shot in flight and `wid` a window by the running numbers the state gives them. `c` is a channel
(0-255; 256-259 are SIN0-SIN3 where start inputs are included), `e` an emitter, `b` a bank or a slot
boundary, `k` an engine or a lane, `x` an axis (0 A, 1 B), `g` a calibration group or a gain.
-/

namespace Sys2Proof

inductive Instr where
  -- reset and boot
  | resetnAssert
  | powerOnReset
  | resetnRelease (role : Bool) (id : Nat) (bootSrc : Bool) (tbl : FlashTable)
  /-- outcomes of the cryptographic steps of the full check of slots A and B: signature, tags -/
  | bootVerifyComplete (sigA tagA sigB tagB : Bool)
  | calStoreLoad
  -- packets
  | nop (q : Req)
  | ident (q : Req)
  | getStatus (q : Req)
  | setParam (q : Req)
  | getParam (q : Req)
  | commit (q : Req)
  | discard (q : Req)
  | readReg (q : Req)
  | writeReg (q : Req)
  | irqPendClear (q : Req)
  | hkbufRdWrite (q : Req)
  | telemetryListWrite (q : Req)
  | state (q : Req)
  | power (q : Req)
  | laneState (q : Req)
  | timeSet (q : Req)
  | calStart (q : Req)
  | calStatus (q : Req)
  | hkSelfcal (q : Req)
  | hkInject (q : Req)
  | steerMode (q : Req)
  | steerMove (q : Req)
  | archMount (q : Req)
  | archStart (q : Req)
  | archStop (q : Req)
  | archStatus (q : Req)
  | updBegin (q : Req)
  | updData (q : Req)
  /-- `sigOk`: the manifest signature verifies -/
  | updEnd (q : Req) (sigOk : Bool)
  | updActivate (q : Req)
  | updConfirm (q : Req)
  | updStatus (q : Req)
  | recoverSelect (q : Req)
  | faultRead (q : Req)
  | faultClear (q : Req)
  | cascEnum (q : Req)
  -- command port and telemetry unit
  /-- `sckHigh`: CP_SCK's level at the select's fall -/
  | cpSelectFall (sckHigh : Bool)
  /-- rising edges after the status byte -/
  | status (edges : Nat)
  /-- bytes of a WRITE after the action byte, each with the bytes SUP has taken out of the receive queue before its boundary -/
  | write (bytes : List (Byte × Nat))
  /-- bytes clocked in a READ after the action byte: bytes of the reply that SUP has loaded before each boundary -/
  | read (loads : List Nat)
  | unknownAction (a : Byte)
  /-- bits of a partly shifted byte (0 at a byte boundary) and their value -/
  | cpSelectRise (bits val : Nat)
  | cmdStallTimeout (bits val : Nat)
  /-- `cmdLow`: CP_TSn falls while CP_CSn is low, with CP_SCK's level at that fall (none: the reverse); a partly shifted byte -/
  | selectCollision (cmdLow : Option Bool) (bits val : Nat)
  | telSelectFall (sckHigh : Bool)
  /-- where CP_RDY was low the host waited for it to rise -/
  | telemetryWord (waited : Bool)
  /-- bits of a word cut short (0 at a word boundary), and whether the word was not ready -/
  | telSelectRise (bits : Nat) (notReady : Bool)
  | telemetryStateUpdate
  -- frames
  | indexCrossing (t : Nat)
  | fsyncEdge (rising : Bool) (t : Nat)
  | frameLimitExpiry (t : Nat)
  | boundaryGapOpen (t : Nat)
  | tokenArrival (d : ClkDom)
  | tokenAck
  | gapEnd (t : Nat)
  | safePendingApply
  -- firing
  /-- the earliest nominal time not yet stepped (R90 order) -/
  | codeStep
  | positionCrossing (t : Nat)
  | preFireGateOpen (sid : Nat)
  /-- steady current of each channel, LSB of DCR -/
  | dcrLatch (sid : Nat) (cur : List (Nat × Nat))
  | fireEdge (sid j : Nat)
  | firePulseEnd (e : Nat)
  /-- a bank, and its channels whose input is above threshold when blanking ends there -/
  | amberEnd (sid : Nat) (above : Nat × List Nat)
  | startAcceptClose (sid j : Nat)
  | listenWindowEnd (sid : Nat)
  /-- peak of each channel outside amber, 1/65,536 of full scale -/
  | rangeEvaluate (sid : Nat) (peaks : List (Nat × Nat))
  | rangeApplyIdle (c : Nat)
  | velocityEstimate
  | dwellSubintervalRoll
  | protectiveFault (src inst detail : Nat)
  | referenceLost
  -- front end and zone
  | trigger (c t : Nat)
  | zoneEventService (c : Nat)
  | zoneHoldExpiry (p : Nat)
  | startTrigger (i t : Nat)
  | saturationAssert (c t : Nat)
  | stuckHighTimeout (c : Nat)
  -- sampler and converters
  | indigoRequest (t : Nat)
  /-- anchor slot, the shot whose gate holds it, arrival -/
  | calibrationParkRequest (c anchor : Nat) (sid : Option Nat) (t : Nat)
  | slotBoundaryDecision (b : Nat)
  | parkInstant (b : Nat)
  | ringRelinkRetire (c b : Nat)
  /-- bank 0-7, or 8 for the start samplers -/
  | samplerFillDone (b : Nat)
  | conversionCycleStart (k : Nat)
  /-- latches of the cells of each window of the set -/
  | rampEnd (cells : List (Nat × List Latch))
  | segmentsRejoin
  /-- the next window of bank `b`, or of the start converter (8) -/
  | windowHandoff (b : Nat)
  -- engines and reorder stage
  | stackedWindowEnter (c i : Nat)
  | engineTakeTask (k : Nat)
  | steal (k : Nat)
  | windowTaskDone (k : Nat)
  | finishTaskCreate (sid c : Nat)
  | finishTaskEnter (k : Nat)
  | finishTaskDone (k : Nat)
  | groupRelease
  | releaseHorizon
  | eccSingle (k : Nat) (m : EccMem)
  /-- engines whose task in hand read the damaged entry -/
  | eccDouble (k : Nat) (m : EccMem) (readers : List Nat)
  | engineReloadDone (k : Nat)
  /-- version of the ENG part that was written -/
  | slateMarkReady (ver : Nat)
  | spillResume
  | stationMerge
  -- return calibration
  | calTempReadDone (g : Nat)
  | calPhaseComplete (g : Nat)
  | calPhaseTimeout (g : Nat)
  | calStoreInterval
  | ditherFreePulse (g : Nat)
  | ditherGatedPulse (g : Nat)
  | gainTestStep (g step : Nat)
  -- housekeeping
  | hkPassTrigger
  | hkTimerTick
  | hkPwmEdge (x : Nat) (falling : Bool)
  /-- pin voltage V0 at the switch, uV, where a burnout test follows -/
  | hkEntrySwitch (v0 : Int)
  | hkEntryDelayEnd
  | hkRefWaitTimeout
  | refrdyChange (r : Nat) (set : Bool)
  /-- raw result, LSB 1/256 code; modulator overrange -/
  | hkConversionEnd (raw : Int) (ovr : Bool)
  | hkbufWrite
  | hkPauseStart
  /-- modulator cycles the pause lasted -/
  | hkPauseEnd (cycles : Nat)
  | hkBlankEdge (level : Bool) (cycles : Nat)
  | hkBlankMaxAbort
  | hkInjectHead
  | selfcalStart
  /-- OFFSET (1/256 code) and GAINF (Q2.22) of gains 0-7, TEMP_HK (0.125 C) -/
  | selfcalEnd (factors : List (Int × Nat)) (temp : Int)
  | hkBgTempMeasure (temp : Int)
  /-- the value of the slot's conversion: OFFSET in the first slot, GAINF in the second -/
  | hkBgCalSlotEnd (val : Int)
  | excMonitorDeclare (src : Nat) (short : Bool)
  /-- pin voltage V1, uV -/
  | burnoutPulseEnd (v1 : Int)
  -- steering
  /-- consecutive samples of ENCA and of ENCB -/
  | encoderEdge (x : Nat) (a b : List Bool)
  /-- an axis, and consecutive samples of its ENCZ -/
  | encoderIndex (x : Nat × List Bool)
  /-- the reading as shifted in, and whether SSID stayed constant -/
  | ssiFrameComplete (x reading : Nat) (const : Bool)
  | cmpReload (x : Nat)
  | loopSample (x : Nat)
  | driverFault (x : Nat)
  -- stream link
  | linkStateTransition
  | linkStageTimeout
  | linkLockLoss
  | linkDownRetry
  | laneLockLoss (k : Nat)
  | invalidBlock (k : Nat)
  | train (k : Nat) (blk : TrainBlock)
  | align (k : Nat) (blk : AlignBlock)
  | credit (vs cum : Nat)
  | laneErr (k count : Nat)
  | cargoFrameReceive (k : Nat) (bytes : List Byte)
  | cargoFrameSend
  | creditSend
  | alignMarkerSend
  | refreshBurst
  | teleFrameBuild
  | partFrameFlush (vs : Nat)
  | txSleepEntry (k : Nat)
  | rxDeepWake (k : Nat)
  -- archive
  | apPerstTimer
  | pcieLinkUp (gen width : Nat) (l0sCap : Bool)
  | pcieLinkTimeout
  /-- CAP.MQES where RDY reached 1 in time -/
  | controllerReady (ready : Option Nat)
  | nvmeCompletion (cid : Nat) (ok dnr : Bool) (data : NvmeData)
  | nvmeCommandTimeout (cid : Nat)
  | pcieLinkDown
  | archiveRecordStage
  | chunkSealTimer (ring : Nat)
  | checkpointTimer
  | healthReadTimer
  -- cascade
  | heartbeatSend
  | heartbeat (frame ringSeq : Nat) (crcOk : Bool)
  | sched (ev : SchedEvent) (crcOk : Bool) (t : Nat)
  | anchor (t : Nat)
  | cross
  | frameEnd (t : Nat)
  /-- eight packet bytes from device `src` for device `dst`; last fragment -/
  | pkt (src dst : Nat) (bytes : List Byte) (last : Bool) (crcOk : Bool)
  | fault (sender src : Nat) (crcOk : Bool)
  | loss (sender : Nat) (crcOk : Bool)
  | enum (entries : List EnumEntry) (crcOk : Bool)
  | ack (sender : Nat) (kind : AckKind) (crcOk : Bool)
  | ringLossSlave
  | heartbeatTimeout
  | breakAtTimeout
  | enumTimeout
  | timeSetAckTimeout
  /-- cycle of the load -/
  | timeSetLoad (t : Nat)
  | forwardTimeout
  -- power and clocks
  | domainSwitchStep
  | domainUp (d : Nat)
  | quarterDrainEnd (qt : Nat)
  | pllLockTimeout
  | clockLost (c : Clk)
  | clockRestored (c : Clk)
  | railFlagUpdate (vsl vap vhk : Bool)
  -- update
  | updEraseStep
  | updEndComplete
  /-- outcome of the signature and tag steps of the full check -/
  | activationCheckDone (sigOk tagOk : Bool)
  | supervisorRestart
  | warmStart
  | cascadeCheckTimeout
  | go
  | goTimeout
  | confirmTimerExpiry
  | fallback
  | bootHeaderErase (copy : Nat)
  -- faults and flash
  | faultClassify (src inst detail : Nat)
  | logBudgetRefill
  | lockstepMismatch
  | pageBufferFlush
  /-- completion bit of the status read; read-back or blank check good -/
  | flashStatusPoll (done good : Bool)
  | flashOpTimeout
  | flashEraseRegister (off : Nat) (size64 : Bool)
  /-- offset of the window read -/
  | windowReadSuspend (off : Nat)
  | comparatorRearm (c : Nat)
  | saturationRecovery (c : Nat)
  | blockLockLost (k : Nat)
  | rxAdaptationComplete
  | controllerFatalStatus
  | ringReceiverLockLoss
  | powerOnResetRelease
  | spillComplete
  | unknownOpcode (opc : Byte) (q : Req)
  deriving DecidableEq, Repr

end Sys2Proof
end

