-- ==== Sys2Proof/Machine/Bits.lean ====
section
/-!
DEFINITION. Bit fields, counters, byte order, CRC-32C and the small integer arithmetic that the
chapters share.
-/

namespace Sys2Proof.Machine

/-- Field [hi:lo] of a word. -/
def fld (w : Word) (hi lo : Nat) : Nat := (w.toNat >>> lo) % 2 ^ (hi - lo + 1)

/-- Bit `n` of a word. -/
def bit (w : Word) (n : Nat) : Bool := w.toNat.testBit n

/-- Field [hi:lo] of a number. -/
def nfld (v hi lo : Nat) : Nat := (v >>> lo) % 2 ^ (hi - lo + 1)

/-- A value in `n` bits read as two's complement. -/
def sgn (n v : Nat) : Int := if v % 2 ^ n < 2 ^ (n - 1) then (v % 2 ^ n : Nat) else ((v % 2 ^ n : Nat) : Int) - 2 ^ n

/-- An integer's two's complement bits, `n` of them. -/
def usgn (n : Nat) (v : Int) : Nat := (v % (2 ^ n : Nat)).toNat

/-- A value placed at bit `lo`, cut to `n` bits. -/
def put (v n lo : Nat) : Nat := (v % 2 ^ n) <<< lo

/-- A word from a number. -/
def wd (v : Nat) : Word := BitVec.ofNat 32 v

def b2n (b : Bool) : Nat := if b then 1 else 0

/-- A saturating counter of `n` bits advanced by `k`. -/
def satAdd (n v k : Nat) : Nat := min (v + k) (2 ^ n - 1)

/-- A wrapping counter of `n` bits advanced by `k`. -/
def wrapAdd (n v k : Nat) : Nat := (v + k) % 2 ^ n

/-- An integer held between two bounds. -/
def clampI (lo hi v : Int) : Int := if v < lo then lo else if hi < v then hi else v

/-- A natural number held between two bounds. -/
def clampN (lo hi v : Nat) : Nat := if v < lo then lo else if hi < v then hi else v

/-- An integer held in `n` bits of two's complement. -/
def satI (n : Nat) (v : Int) : Int := clampI (-(2 ^ (n - 1) : Nat)) ((2 ^ (n - 1) : Nat) - 1) v

/-- Two's complement wrap to `n` bits. -/
def wrapI (n : Nat) (v : Int) : Int := sgn n (usgn n v)

/-- Quotient rounded to the nearest integer, halves upward; 0 for a divisor of 0. -/
def rdivI (a : Int) (b : Nat) : Int := (2 * a + b) / (2 * b : Nat)

/-- Bytes of a number, least significant first (R7). -/
def leBytes : Nat → Nat → List Byte
  | 0, _ => []
  | n + 1, v => BitVec.ofNat 8 v :: leBytes n (v >>> 8)

/-- The number whose bytes are given, least significant first. -/
def ofLe : List Byte → Nat
  | [] => 0
  | b :: r => b.toNat + 256 * ofLe r

/-- Bytes gathered into 32-bit words, least significant first. -/
def wordsOf : List Byte → List Word
  | a :: b :: c :: d :: r => wd (ofLe [a, b, c, d]) :: wordsOf r
  | _ => []

/-- Bytes of words (R313). -/
def bytesOf (ws : List Word) : List Byte := ws.flatMap (fun w => leBytes 4 w.toNat)

/-- One bit of the reflected CRC-32C register. -/
def crcBit (r : Nat) : Nat := if r % 2 = 1 then (r >>> 1) ^^^ 0x82F63B78 else r >>> 1

/-- One byte into the CRC-32C register. -/
def crcByte (r : Nat) (b : Byte) : Nat :=
  crcBit (crcBit (crcBit (crcBit (crcBit (crcBit (crcBit (crcBit (r ^^^ b.toNat))))))))

/-- CRC-32C of bytes (R313). -/
def crc32c (bs : List Byte) : Nat := (bs.foldl crcByte 0xFFFFFFFF) ^^^ 0xFFFFFFFF

/-- Gray code of a number, and the number of a Gray code by prefix XOR. -/
def grayOf (v : Nat) : Nat := v ^^^ (v >>> 1)

def grayStep : Nat → Nat → Nat → Nat
  | 0, _, acc => acc
  | n + 1, g, acc => grayStep n (g >>> 1) (acc ^^^ g)

/-- Number whose `n`-bit Gray code is `g`. -/
def ofGray (n g : Nat) : Nat := grayStep n g 0

/-- Integer square root bit by bit, from bit `b` down. -/
def isqrtStep : Nat → Nat → Nat → Nat
  | 0, v, r => if (r + 1) * (r + 1) ≤ v then r + 1 else r
  | b + 1, v, r =>
    let c := r + 2 ^ (b + 1)
    isqrtStep b v (if c * c ≤ v then c else r)

/-- The greatest number whose square is at most `v`, for `v` below 2^128. -/
def isqrt (v : Nat) : Nat := isqrtStep 63 v 0

/-- Number of bits set in the low `n` bits. -/
def popBits : Nat → Nat → Nat
  | 0, _ => 0
  | n + 1, v => v % 2 + popBits n (v >>> 1)

/-- Numbers of the bits set in the low `n` bits, from number `i` on. -/
def bitsSet : Nat → Nat → Nat → List Nat
  | 0, _, _ => []
  | n + 1, i, v => if v % 2 = 1 then i :: bitsSet n (i + 1) (v >>> 1) else bitsSet n (i + 1) (v >>> 1)

/-- A mask with the bits of a list set. -/
def maskOf (l : List Nat) : Nat := l.foldl (fun m k => m ||| 2 ^ k) 0

end Sys2Proof.Machine
end

