-- ==== Sys2Proof/Machine/Sha.lean ====
section
/-!
DEFINITION. SHA-384, the hash that a manifest's tag is taken from (R425, R448; FIPS 180-4 as log entry 90 says). The
constants are computed from their definition: fractional bits of roots of the first primes.
-/

namespace Sys2Proof.Machine

/-- A number without a divisor from 2 up to below itself. -/
def isPrime (n : Nat) : Bool := decide (2 ≤ n) && (List.range n).all fun k => decide (k < 2) || n % k != 0

/-- The first 80 primes. -/
def shaPrimes : List Nat := (List.range 410).filter isPrime

/-- Integer cube root bit by bit, from bit `b` down. -/
def icbrtStep : Nat → Nat → Nat → Nat
  | 0, v, r => if (r + 1) * (r + 1) * (r + 1) ≤ v then r + 1 else r
  | b + 1, v, r => let c := r + 2 ^ (b + 1); icbrtStep b v (if c * c * c ≤ v then c else r)

/-- Round constants: 64 fractional bits of the cube roots of the first 80 primes. -/
def shaRoundConsts : List (BitVec 64) := shaPrimes.map fun p => BitVec.ofNat 64 (icbrtStep 67 (p * 2 ^ 192) 0)

/-- Start value: 64 fractional bits of the square roots of the 9th to the 16th prime. -/
def shaStart : List (BitVec 64) := ((shaPrimes.drop 8).take 8).map fun p => BitVec.ofNat 64 (isqrtStep 69 (p * 2 ^ 128) 0)

/-- Number whose bytes are given, most significant first. -/
def ofBe (b : List Byte) : Nat := ofLe b.reverse

/-- Bytes of a number, most significant first. -/
def beBytes (n v : Nat) : List Byte := (leBytes n v).reverse

/-- Sum of three rotations to the right; the last is a shift where `sh` says so. -/
def shaMix (sh : Bool) (a b c : Nat) (x : BitVec 64) : BitVec 64 :=
  x.rotateRight a ^^^ x.rotateRight b ^^^ (if sh then x >>> c else x.rotateRight c)

/-- The message schedule grows at its end: each word from those 16, 15, 7 and 2 places before it. -/
def shaExtend (w : List (BitVec 64)) : List (BitVec 64) :=
  (List.range 64).foldl (fun w i => w ++ [w.getD i 0 + shaMix true 1 8 7 (w.getD (i + 1) 0) + w.getD (i + 9) 0 + shaMix true 19 61 6 (w.getD (i + 14) 0)]) w

/-- Bits of `y` where `x` is 1, of `z` where it is 0. -/
def shaPick (x y z : BitVec 64) : BitVec 64 := z ^^^ (x &&& (y ^^^ z))

/-- The bit most of three have. -/
def shaVote (x y z : BitVec 64) : BitVec 64 := (x &&& (y ||| z)) ||| (y &&& z)

/-- One round on the working words, which move on by one place; `k` is the round's constant plus its word. -/
def shaStep (v : List (BitVec 64)) (k : BitVec 64) : List (BitVec 64) :=
  match v with
  | [a, b, c, d, e, f, g, h] =>
    let t := h + k + shaMix false 14 18 41 e + shaPick e f g
    [t + shaMix false 28 34 39 a + shaVote a b c, a, b, c, d + t, e, f, g]
  | _ => v

/-- The hash after one more block of 128 bytes. -/
def shaBlock (h : List (BitVec 64)) (b : List Byte) : List (BitVec 64) :=
  let w := shaExtend ((List.range 16).map fun i => BitVec.ofNat 64 (ofBe ((b.drop (8 * i)).take 8)))
  List.zipWith (· + ·) h ((List.zipWith (· + ·) shaRoundConsts w).foldl shaStep h)

/-- A message with its end mark, zeros and its length in bits, in whole blocks. -/
def shaPadded (m : List Byte) : List Byte := m ++ 0x80#8 :: List.replicate ((239 - m.length % 128) % 128) 0 ++ beBytes 16 (8 * m.length)

/-- SHA-384 of bytes. -/
def sha384 (m : List Byte) : List Byte :=
  let p := shaPadded m
  (((List.range (p.length / 128)).foldl (fun h i => shaBlock h ((p.drop (128 * i)).take 128)) shaStart).flatMap fun x => beBytes 8 x.toNat).take 48

end Sys2Proof.Machine
end

