-- ==== Sys2Proof/Machine/Tab.lean ====
section
/-!
DEFINITION. Sparse tables: the read, the write and the canonical form of a list of keyed values. A key
that is not listed reads as the table's default, and a write of the default removes the key's entry.
-/

namespace Sys2Proof.Machine

/-- Value of key `k`; `d` where it is not listed. -/
def tget {α : Type} (d : α) : Tab α → Nat → α
  | [], _ => d
  | p :: r, k => if p.1 = k then p.2 else tget d r k

/-- The table without key `k`. -/
def tdel {α : Type} : Tab α → Nat → Tab α
  | [], _ => []
  | p :: r, k => if p.1 = k then tdel r k else p :: tdel r k

/-- Key `k` put before the first greater key. -/
def tins {α : Type} : Tab α → Nat → α → Tab α
  | [], k, v => [(k, v)]
  | p :: r, k, v => if k < p.1 then (k, v) :: p :: r else p :: tins r k v

/-- The table with key `k` at `v`. -/
def tset {α : Type} [DecidableEq α] (d : α) (t : Tab α) (k : Nat) (v : α) : Tab α :=
  if v = d then tdel t k else tins (tdel t k) k v

/-- The table with key `k`'s value passed through `f`. -/
def tmod {α : Type} [DecidableEq α] (d : α) (t : Tab α) (k : Nat) (f : α → α) : Tab α :=
  tset d t k (f (tget d t k))

/-- Canonical form: keys strictly rising, every key above `lo` when one is given, no entry equal to
the default. -/
def twf {α : Type} [DecidableEq α] (d : α) : Option Nat → Tab α → Bool
  | _, [] => true
  | lo, p :: r => (match lo with | none => true | some l => decide (l < p.1)) && decide (p.2 ≠ d) && twf d (some p.1) r

/-- The table with every key of `ks` passed through `f`. -/
def tmodAll {α : Type} [DecidableEq α] (d : α) (t : Tab α) (ks : List Nat) (f : Nat → α → α) : Tab α :=
  ks.foldl (fun t k => tmod d t k (f k)) t

/-- First entry of a list with a given key. -/
def lookupNat {α : Type} : List (Nat × α) → Nat → Option α
  | [], _ => none
  | p :: r, k => if p.1 = k then some p.2 else lookupNat r k

/-- The numbers lo, lo + 1, …, n of them. -/
def upto (lo n : Nat) : List Nat := (List.range n).map (lo + ·)

/-- A list of numbers with `k` added unless it is there. -/
def addNew (l : List Nat) (k : Nat) : List Nat := if l.contains k then l else l ++ [k]

/-- A list of numbers without `k`. -/
def remNat (l : List Nat) (k : Nat) : List Nat := l.filter (· ≠ k)

/-- Insertion into a list ordered by `key`, behind entries of the same key. -/
def insBy {α : Type} (key : α → Int) : List α → α → List α
  | [], x => [x]
  | y :: r, x => if key x < key y then x :: y :: r else y :: insBy key r x

/-- The list ordered by `key`, entries of one key in their own order. -/
def sortBy {α : Type} (key : α → Int) (l : List α) : List α := l.foldl (insBy key) []

end Sys2Proof.Machine
end

