-- ==== Sys2Proof/Machine/Aes.lean ====
section
/-!
DEFINITION. AES-256 in counter mode, by which slot reads are decrypted (R304, R425; FIPS 197 as log entry 126 says). A byte
is a number below 256; a block lists 16 of them, column by column.
-/

namespace Sys2Proof.Machine

/-! ### The field of 256 elements -/

/-- A byte's product with x, modulo x^8 + x^4 + x^3 + x + 1. -/
def gfDouble (a : Nat) : Nat := if 128 ≤ a then (2 * a) ^^^ 0x11B else 2 * a

def gfMul (a b : Nat) : Nat := (List.range 8).foldr (fun i p => gfDouble p ^^^ (if b.testBit i then a else 0)) 0

/-- a^254: the inverse, and 0 of 0. -/
def gfInv (a : Nat) : Nat := ((List.range 7).foldl (fun (p : Nat × Nat) _ => let q := gfMul p.1 p.1; (q, gfMul p.2 q)) (a, 1)).2

/-- A byte turned left by `k` bits. -/
def turnLeft (k a : Nat) : Nat := (a * 2 ^ k) % 256 + a / 2 ^ (8 - k)

/-- The substitution: the inverse, then the affine map. -/
def subByte (a : Nat) : Nat :=
  let b := gfInv a
  (upto 1 4).foldl (fun v k => v ^^^ turnLeft k b) (b ^^^ 0x63)

/-! ### The cipher -/

def xorList (a b : List Nat) : List Nat := List.zipWith (· ^^^ ·) a b

/-- Word `i` of the key schedule from the words before it. -/
def nextKeyWord (w : List (List Nat)) (i : Nat) : List Nat :=
  let p := w.getD (i - 1) []
  let t := if i % 8 = 0 then xorList ((p.drop 1 ++ p.take 1).map subByte) [(List.range (i / 8 - 1)).foldl (fun v _ => gfDouble v) 1, 0, 0, 0]
    else if i % 8 = 4 then p.map subByte else p
  xorList (w.getD (i - 8) []) t

/-- The 60 words of a key of 32 bytes. -/
def keyWords (key : List Nat) : List (List Nat) :=
  (upto 8 52).foldl (fun w i => w ++ [nextKeyWord w i]) ((List.range 8).map fun i => (key.drop (4 * i)).take 4)

/-- Row r of the block turns left by r places. -/
def turnRows (b : List Nat) : List Nat := (List.range 16).map fun n => b.getD (4 * ((n / 4 + n % 4) % 4) + n % 4) 0

/-- Each column times the fixed polynomial. -/
def mixColumns (b : List Nat) : List Nat :=
  (List.range 16).map fun n =>
    let at_ := fun k => b.getD (4 * (n / 4) + (n % 4 + k) % 4) 0
    gfMul 2 (at_ 0) ^^^ gfMul 3 (at_ 1) ^^^ at_ 2 ^^^ at_ 3

/-- AES-256 of a block: 14 rounds, the last without mixing. -/
def aesBlock (key block : List Nat) : List Nat :=
  let w := keyWords key
  let rk := fun n => ((w.drop (4 * n)).take 4).flatten
  let mid := (upto 1 13).foldl (fun b n => xorList (mixColumns (turnRows (b.map subByte))) (rk n)) (xorList block (rk 0))
  xorList (turnRows (mid.map subByte)) (rk 14)

/-- The 16 key-stream bytes of block `n` of a range: the IV, then 2 + n in 32 bits, big-endian (R304). -/
def ctrBlock (key iv : List Nat) (n : Nat) : List Nat := aesBlock key (iv ++ ((beBytes 4 (2 + n)).map fun b => b.toNat))

end Sys2Proof.Machine
end

