-- ==== Sys2Proof/Config.lean ====
section
/-!
DEFINITION. What an implementation fixes and the spec leaves open: opaque constants without a value a
proof could see, and the device's fixed identity.
-/

namespace Sys2Proof

/-- Free values, one for each number of the state's counter (log entry 2). -/
opaque Config.freeValue : Nat → Nat

/-- The OTP die number (R320, log entry 7). -/
opaque Config.dieNumber : Nat

/-! OTP factory values (log entry 7): the converter's factors (R221), the return path's delays, skews,
resistor choices and retired segments (R191, R196). -/
opaque Config.otpOffset : Nat → Nat
opaque Config.otpGainf : Nat → Nat
opaque Config.otpDelay : Nat → Int
opaque Config.otpDelayST : Nat → Int
opaque Config.otpSlopeST : Nat → Int
opaque Config.otpSkew : Nat → Int
opaque Config.otpRsel : Nat → Nat → Nat
opaque Config.otpRetired : Nat → List Nat

/-- Temperature (Q16.16 °C) that stands for a group's before any was measured (R97, log entry 16). -/
opaque Config.unknownTemp : Nat → Int

/-- Whether a rising RSEL raises a range's gain (R190, log entry 17). -/
opaque Config.rselRaises : Bool

/-- Die temperature of a sensor's corrected code, Q16.16 °C (R201, log entry 13). -/
opaque Config.dieSensor : Nat → Int → Int

/-- Bits of the JTAG instruction register (R469, log entry 138). -/
opaque Config.jtagIrLen : Nat

/-- Whether an image key is programmed in OTP, and the bytes of its keys (R425, log entry 7). -/
opaque Config.keyProgrammed : Nat → Bool
opaque Config.imageKey : Nat → Nat → Nat

end Sys2Proof
end

