-- ==== Sys2Proof/Machine/BlockMap.lean ====
section
/-!
DEFINITION. The parameter blocks' field maps: for each word of each configurable block its RW fields with
their reset values and allowed ranges (R330 and the field maps named beside each block). Bits that no
field covers are RO or reserved: they read their reset value and discard writes (R8, R10).
-/

namespace Sys2Proof.Machine

/-- An RW field: its bits, its reset value, and the value ranges it accepts (none listed: all). -/
structure Fd where
  hi : Nat
  lo : Nat
  reset : Nat
  ok : List (Nat × Nat)
  deriving DecidableEq, Repr

/-- A field without a range. -/
def fd (hi lo reset : Nat) : Fd := ⟨hi, lo, reset, []⟩

/-- A field with one range. -/
def fr (hi lo reset least most : Nat) : Fd := ⟨hi, lo, reset, [(least, most)]⟩

/-- FORMAT of every block (R10, R326): major 1, minor 0. -/
def formatWord : Word := 0x00010000#32

/-- Words of a configurable block (R330). -/
def blockLen (id : Nat) : Option Nat :=
  if id = 0x01 then some 2 else if id = 0x02 then some 3 else if id = 0x03 then some 188
  else if id = 0x04 then some 517 else if id = 0x05 then some 5 else if 0x10 ≤ id ∧ id ≤ 0x17 then some 35
  else if id = 0x20 then some 2 else if id = 0x30 then some 3 else if id = 0x31 then some 32
  else if id = 0x32 then some 1169 else if id = 0x40 then some 13 else if id = 0x41 then some 4
  else if id = 0x50 then some 8 else if id = 0x60 then some 5 else if id = 0x61 then some 194
  else if id = 0x62 then some 57 else if id = 0x63 then some 9 else if id = 0x70 ∨ id = 0x71 then some 37
  else if id = 0x80 then some 3 else if id = 0x90 then some 5 else if id = 0xA0 then some 2
  else if id = 0xB0 then some 3 else if id = 0xC0 then some 23 else none

/-- Words of a status block (R330). -/
def statusLen (id : Nat) : Option Nat :=
  if id = 0xE0 then some 9 else if id = 0xE1 then some 261 else if id = 0xE2 then some 781
  else if id = 0xE3 then some 34 else if id = 0xE4 then some 388 else if id = 0xE5 then some 257
  else if id = 0xE6 then some 7 else if id = 0xE7 then some 271 else if id = 0xE8 then some 6
  else if id = 0xE9 then some 25 else if id = 0xEA then some 7 else if id = 0xEB then some 13
  else if id = 0xEC then some 9 else if id = 0xED then some 22 else if id = 0xEE then some 11
  else if id = 0xEF then some 4 else none

/-- The configurable blocks, in ascending ID. -/
def blockIds : List Nat :=
  [0x01, 0x02, 0x03, 0x04, 0x05, 0x10, 0x11, 0x12, 0x13, 0x14, 0x15, 0x16, 0x17, 0x20, 0x30, 0x31, 0x32, 0x40, 0x41,
   0x50, 0x60, 0x61, 0x62, 0x63, 0x70, 0x71, 0x80, 0x90, 0xA0, 0xB0, 0xC0]

/-- R331. -/
def frameFields (off : Nat) : List Fd :=
  if off = 1 then [fr 31 30 1 0 2, fd 29 29 0, fr 23 0 1000 1 16777215]
  else [fr 31 16 2000 2000 65535, fr 15 8 16 1 255, fd 7 0 100]

/-- R104, R105. -/
def fireFields (off : Nat) : List Fd :=
  if off = 1 then [fd 31 31 0, fd 30 30 0, fr 29 16 2000 100 13100, fd 15 8 0xFF, fr 7 0 20 2 255]
  else if off = 2 then [fr 30 0 1 1 0x7FFFFFFF]
  else if off = 3 then [fd 31 8 0]
  else if off = 4 then [fr 31 8 4096 1 0xFFFFFF]
  else if off = 5 then []
  else if off < 38 then
    if off % 2 = 0 then
      [fd 31 31 0, ⟨30, 28, 7, [(0, 3), (7, 7)]⟩, fd 27 26 0, fr 25 24 0 0 2, fd 23 23 0, fr 19 0 10000 1000 1000000]
    else [fr 31 12 0 0 999999, fd 11 9 0, fr 8 0 25 1 511]
  else if off < 54 then [fr 31 16 50 10 1000, fr 15 0 80 10 1000]
  else if off < 58 then [fd 31 31 0, fd 30 29 2, fd 28 19 256, fd 15 0 0]
  else [fd 31 16 0, fd 15 0 0]

/-- R61. -/
def zoneFields (off : Nat) : List Fd :=
  if off < 5 then [fd 31 31 0, fd 30 30 0, fd 29 26 0, fd 25 22 0, fd 15 0 1000]
  else [fd 31 18 0, fd 17 4 0, fd 3 2 0, fd 1 1 0]

/-- R106. -/
def dwellFields (off : Nat) : List Fd :=
  if off = 1 then [fd 31 31 1, fd 30 30 0, fd 29 29 0, fr 28 25 8 4 12, fr 15 0 1000 16 65535]
  else if off = 2 then [fr 31 8 0xFFFFFF 1 16777215, fr 7 0 10 1 255]
  else if off = 3 then [fd 31 8 0, fd 7 0 5]
  else [fd 31 0 0x55555555]

/-- R60. -/
def bankFields (off : Nat) : List Fd :=
  if off = 1 then
    [fd 29 29 0, fd 28 28 0, fd 27 26 0, fd 25 24 3, fd 23 23 0, fd 22 19 4, fd 18 8 50, fr 7 0 32 1 255]
  else if off = 2 then [fd 31 24 205, fd 23 16 38, fr 15 12 2 1 15, fr 7 0 8 1 255]
  else [fd 31 22 256, fd 21 20 0, fd 19 19 0]

/-- R85. -/
def samplerFields : List Fd :=
  [fd 31 31 1, fd 30 27 2, fd 26 24 0, fd 23 23 0, fd 22 22 0, fd 21 21 0]

/-- R133. -/
def engineFields (off : Nat) : List Fd :=
  if off = 1 then
    [fd 31 31 1, fd 30 30 1, fd 29 29 1, fd 28 28 1, fd 27 27 1, fd 26 26 1, fd 25 25 0, fr 23 20 8 1 8,
     fr 19 16 2 1 8, fr 15 8 4 1 63]
  else [fd 31 18 150, fr 17 8 128 1 1023]

/-- R156. -/
def decisionFields (off : Nat) : List Fd :=
  if off = 1 then
    [fr 31 29 0 0 5, fd 28 28 0, fd 27 27 0, fd 26 25 1, fd 24 24 0, fd 23 16 0, fr 15 8 64 16 255, fr 7 0 8 1 255]
  else if off = 2 then [fr 31 24 16 1 255, fd 23 12 64, fr 11 0 80 1 4095]
  else if off = 3 then [fd 31 20 64, fr 19 17 1 1 4, fr 16 13 1 0 8, fr 12 0 256 1 8191]
  else if off = 4 then [fd 31 22 40, fd 21 0 51200]
  else if off = 5 then [fd 31 16 200, fd 15 0 0]
  else if off = 6 then [fr 31 10 256000 1 0x3FFFFF, fd 9 9 0]
  else if off = 7 then [fd 31 10 2560, fr 9 0 16 1 1023]
  else if off < 24 then [fd 31 22 120]
  else [fr 31 24 96 32 254]

/-- R134. Tap 16 resets to 0x4000: it is TAP[2i] of word i = 8. -/
def templateFields (off : Nat) : List Fd :=
  if off < 17 then [fd 31 31 0, fd 30 29 0, fd 28 27 0]
  else
    let i := (off - 17) % 18
    if i = 8 then [fd 31 16 0, fd 15 0 0x4000]
    else if i < 16 then [fd 31 16 0, fd 15 0 0]
    else if i = 16 then [fd 31 16 0x4000, fd 15 0 0]
    else [fd 31 16 0]

/-- R174. -/
def stackFields (off : Nat) : List Fd :=
  if off = 1 then [fd 31 31 0, fd 30 28 0, fd 27 26 1, fd 25 18 0xFF, fd 17 10 0x63]
  else if off = 2 then [fr 31 16 1 1 65535, fd 15 0 0]
  else if off = 3 then [fd 31 26 0, fd 25 20 0, fd 19 14 0, fd 13 8 0, fd 7 2 0]
  else if off = 4 then [fd 31 22 256]
  else [fr 31 28 8 0 12, fd 21 0 0]

/-- R175. -/
def predictFields (off : Nat) : List Fd :=
  if off = 1 then [fd 31 31 0, fr 30 28 4 0 4, fd 27 27 0]
  else if off = 2 then [fr 31 16 16 1 65535, fd 15 8 0]
  else [fr 31 22 50 0 750]

/-- R198. -/
def rcalFields (off : Nat) : List Fd :=
  if off = 1 then
    [fd 31 31 1, fd 30 30 1, fd 29 26 0xF, fr 25 19 8 1 64, fr 18 16 0 0 3, fr 15 8 128 16 240, fr 7 0 8 1 255]
  else if off = 2 then [fr 31 19 256 1 4096, fr 18 17 2 1 2, fr 15 0 600 1 65535]
  else if off = 3 then [fr 31 24 2 1 255, fr 23 16 4 1 255, fr 15 8 4 1 255, fr 7 0 16 1 255]
  else if off = 4 then [fr 31 29 0 0 6, fr 28 18 110 64 2047, fr 17 6 1000 1 2000]
  else if off = 5 then [fr 31 24 64 8 255, fr 23 16 16 1 255, fr 15 8 64 1 255, fr 7 0 64 1 255]
  else if off = 6 then [fr 31 22 256 8 1023, fr 21 14 64 8 255, fr 13 6 32 4 255]
  else [fd 31 24 0xFF, fd 23 23 1]

/-- R229. -/
def hkcFields (off : Nat) : List Fd :=
  if off = 1 then
    [fd 31 31 0, fr 30 29 0 0 2, fr 28 27 1 0 2, fd 26 26 0, fd 25 25 1, fd 24 24 0, fd 23 23 0, fd 22 22 1, fd 21 14 20]
  else if off = 2 then [fr 31 8 100000 100 16777215]
  else if off = 3 then [fd 31 31 0, fd 30 30 0, fd 15 0 0]
  else [fd 31 20 0, fr 19 16 4 1 15, fr 15 8 100 1 255]

/-- The three words of an HKSEQ entry (R230), with the input codes of R200. -/
def hkEntryFields (i : Nat) : List Fd :=
  if i = 0 then
    [⟨31, 26, 0, [(0, 23), (32, 43), (48, 57)]⟩, ⟨25, 20, 63, [(0, 23), (63, 63)]⟩, fd 19 17 0, fd 16 16 0, fd 15 13 0,
     fd 12 10 7, fr 9 8 0 0 2, fr 7 6 0 0 2, fr 5 4 0 0 2, fd 3 3 0, fd 2 2 0]
  else if i = 1 then [fr 31 12 122880 615 614400, fr 11 8 0 0 9, fd 7 5 0]
  else [fd 31 16 1000, fr 15 8 1 1 255]

/-- R230. -/
def hkseqFields (off : Nat) : List Fd :=
  if off = 1 then [fd 31 26 0] else hkEntryFields ((off - 2) % 3)

/-- One excitation source field at bit `lo` (R233, R234, R250). -/
def srcFields (lo : Nat) : List Fd := [fd (lo + 15) (lo + 15) 0, fr (lo + 14) (lo + 12) 0 0 6, fr (lo + 11) (lo + 7) 0 0 23]

/-- R250. -/
def excFields (off : Nat) : List Fd :=
  if off = 1 then [fd 31 31 0, fd 30 25 0, fr 24 15 100 20 1000, fr 14 7 4 1 255]
  else if off = 2 then [fd 31 8 0]
  else if off = 3 then [fd 31 16 0]
  else if off < 25 then
    if (off - 4) % 3 = 2 then [fd 31 8 0, fd 7 0 0] else srcFields 16 ++ srcFields 0
  else if off % 2 = 1 then [fd 31 0 ((off - 25) / 2 * 0x100)]
  else [fd 31 0 ((off - 25) / 2 * 0x10000)]

/-- R251. -/
def biasFields (off : Nat) : List Fd :=
  if off % 2 = 1 then [fd 31 31 0, fd 30 30 0, fd 29 24 0, fd 23 12 0, fd 11 4 16]
  else [fd 31 16 0, fd 15 4 200]

/-- R279, with the magnitudes of R267. -/
def steerFields (off : Nat) : List Fd :=
  if off = 1 then
    [fd 31 31 0, fd 30 30 0, fd 29 29 0, fd 28 25 2, fr 24 23 1 0 2, fd 22 22 0, fr 21 16 16 8 32, fr 15 8 20 10 255,
     fd 7 0 20]
  else if off = 2 then [fr 31 16 2000 1000 65535, fr 15 10 1 1 63, fd 9 0 63]
  else if off = 3 then [fr 31 0 65536 16 0x80000000]
  else if off = 4 then [fd 31 0 0]
  else if off = 5 then [fd 31 16 0, fd 15 0 0]
  else if off = 6 then [fd 31 8 0]
  else if off = 7 then [fr 31 16 8 1 65535]
  else if off = 8 then [fr 31 0 0x7FFFFFFF 1 0x7FFFFFFF]
  else if off = 9 then [fr 31 0 0x7FFFFFFF 0 0x7FFFFFFF]
  else if off = 10 ∨ off = 11 then [fr 31 0 0 0 0x7FFFFFFF]
  else if off < 15 then [fd 31 0 0]
  else if off < 32 then [fd 31 0 (if off = 22 ∨ off = 27 then 0x40000000 else 0)]
  else if off = 33 then [fd 28 24 30, fd 20 16 0, fd 12 8 0, fd 4 0 0]
  else if off = 35 then [fd 28 24 0, fd 20 16 0, fd 12 8 0, fd 4 0 30]
  else if off < 36 then [fd 28 24 0, fd 20 16 0, fd 12 8 0, fd 4 0 0]
  else [fd 4 0 0]

/-- R364. -/
def linkFields (off : Nat) : List Fd :=
  if off = 1 then
    [fd 31 31 0, fd 30 30 0, fd 29 28 3, fd 27 26 0, fd 25 25 0, fd 24 24 1, fd 23 23 0, fd 22 22 0,
     ⟨15, 0, 0, [(0, 0), (10, 65535)]⟩]
  else [fr 31 16 2000 100 65535]

/-- R390. -/
def archiveFields (off : Nat) : List Fd :=
  if off = 1 then
    [fd 31 31 0, fd 30 30 0, fd 29 29 0, fr 28 26 4 1 4, fr 25 24 2 0 2, fr 23 16 90 1 255, fr 15 8 10 1 255,
     fr 7 0 4 0 64]
  else if off = 2 then [fd 31 0 0]
  else if off = 3 then [fd 31 24 128, fd 23 16 96, fd 15 8 32]
  else [fr 31 16 1000 10 65535, fr 15 0 2000 10 65535]

/-- Reset N, UNIT and W of source `s` (R460). -/
def faultReset (s : Nat) : Nat × Nat × Nat :=
  if s = 1 then (3, 3, 60) else if s = 2 then (64, 2, 10) else if s = 3 then (8, 2, 1) else if s = 4 then (3, 3, 10)
  else if s = 5 then (8, 2, 60) else if s = 6 then (16, 2, 1) else if s = 7 then (3, 3, 10)
  else if s = 8 then (1, 2, 1) else (3, 3, 1440)

/-- R460: words 1-9. -/
def faultFields (off : Nat) : List Fd :=
  if off < 10 then
    [fr 31 16 (faultReset off).1 1 65535, fd 15 14 (faultReset off).2.1, fr 13 0 (faultReset off).2.2 1 16383]
  else []

/-- RW fields of word `off` of block `id`. -/
def wordFields (id off : Nat) : List Fd :=
  if off = 0 then []
  else if id = 0x01 then [fd 31 0 0]
  else if id = 0x02 then frameFields off
  else if id = 0x03 then fireFields off
  else if id = 0x04 then zoneFields off
  else if id = 0x05 then dwellFields off
  else if 0x10 ≤ id ∧ id ≤ 0x17 then bankFields off
  else if id = 0x20 then samplerFields
  else if id = 0x30 then engineFields off
  else if id = 0x31 then decisionFields off
  else if id = 0x32 then templateFields off
  else if id = 0x40 then stackFields off
  else if id = 0x41 then predictFields off
  else if id = 0x50 then rcalFields off
  else if id = 0x60 then hkcFields off
  else if id = 0x61 then hkseqFields off
  else if id = 0x62 then excFields off
  else if id = 0x63 then biasFields off
  else if id = 0x70 ∨ id = 0x71 then steerFields off
  else if id = 0x80 then linkFields off
  else if id = 0x90 then archiveFields off
  else if id = 0xA0 then [fd 31 31 1, fr 29 16 2100 500 16383]
  else if id = 0xB0 then (if off = 1 then [fd 31 24 20] else [])
  else if id = 0xC0 then faultFields off
  else []

/-- Reset value of a word. -/
def resetWord (id off : Nat) : Word :=
  if off = 0 then formatWord
  else wd ((wordFields id off).foldl (fun a f => a + put f.reset (f.hi - f.lo + 1) f.lo) 0)

/-- The bits of a word that a write changes. -/
def rwMask (id off : Nat) : Nat :=
  (wordFields id off).foldl (fun a f => a + ((2 ^ (f.hi - f.lo + 1) - 1) <<< f.lo)) 0

/-- Every field of the written word lies in its stated range (R314 check 9). -/
def wordInRange (id off : Nat) (w : Word) : Bool :=
  (wordFields id off).all fun f =>
    f.ok.isEmpty || f.ok.any fun p => decide (p.1 ≤ fld w f.hi f.lo) && decide (fld w f.hi f.lo ≤ p.2)

/-- What a write of `w` stores: RW bits from `w`, the rest at their reset value (R8, R10). -/
def storedWord (id off : Nat) (w : Word) : Word :=
  if off = 0 then formatWord else wd (w.toNat &&& rwMask id off)

end Sys2Proof.Machine
end

