-- ==== Sys2Proof/Machine/State.lean ====
section
/-!
DEFINITION. The state of the block: plain data, one record per part of the device, and its value right
after reset. Counters are natural numbers below the bound of their field; the operations that
advance them saturate or wrap as the field's rule says. A time named "cycle" is in SMP cycles of
DEVTIME (0.2 ns, R63).
-/

namespace Sys2Proof.Machine

/-- Why the block stops. -/
inductive Fault where
  /-- Raised by a command whose operand names an object the device does not have (R4: a channel, bank,
  emitter, engine, lane, axis, pin or group beyond its range). Safe: no hardware event has this form. -/
  | noSuchObject
  deriving DecidableEq, Repr

/-- Why a command has no meaning here. -/
inductive Refusal where
  /-- Raised by the dispatcher for a command without a meaning yet. Safe: the machine stops. -/
  | notModelled (mnemonic : String)
  deriving DecidableEq, Repr

/-! ### System (D0) -/

/-- System fields of D0: time, device state, straps, DEVSTAT and the interrupt registers. -/
structure Sys where
  /-- time since D0 power-up, 0.2 ns (own; clocks R450 and UPTIME of R455) -/
  now : Nat
  /-- the present count in SMP cycles, without the wrap: DEVTIME is cyc / 5 mod 2^64 (R95, R63) -/
  cyc : Nat
  /-- free values taken so far (own) -/
  free : Nat
  devState : DevState
  /-- state the supervisor resumes on leaving RECOVERY or a warm BOOT (R483) -/
  resume : Option DevState
  /-- RESETn low / power-on reset active (R410, R408) -/
  resetLow : Bool
  porLow : Bool
  /-- CASC_ROLE, CASC_ID, BOOT_SRC as sampled (R12) -/
  cascRole : Bool
  cascId : Nat
  bootSrc : Bool
  statePend : Bool
  stateTarget : Nat
  tempHold : Bool
  commitId : Nat
  appliedId : Nat
  frameNo : Nat
  devtimeHeld : Nat
  deferCnt : Nat
  forcedCnt : Nat
  badCrc : Nat
  badOpc : Nat
  formatCnt : Nat
  /-- IRQ_PEND bits [12:1] as a number; bit 0 is RPLY and is computed (R338) -/
  irqPend : Nat
  irqMask : Nat
  hkIrqLvl : Nat
  /-- the status byte's RDY (R285) -/
  rdy : Bool
  /-- TIME_SET accepted and not yet loaded: V and the request (R96) -/
  timeSet : Option (Nat × Req)
  /-- count (ns, without the wrap) at which V is loaded; 0 until it is fixed (R96, R397) -/
  tsAt : Nat
  deriving DecidableEq, Repr

/-- Parameter blocks: copies by block ID, each a table of words whose unlisted words read as the
reset value (R324, R325, R330). -/
structure Cfg where
  active : Tab (Tab Word)
  slate : Tab (Tab Word)
  pend : Tab (Tab Word)
  /-- blocks with a written mark; blocks in the pending set -/
  written : List Nat
  pendBlocks : List Nat
  /-- COMMIT_ID of the newest COMMIT in the pending set -/
  pendId : Option Nat
  /-- the set fixed at the gap: blocks with their words, and its COMMIT_ID (R24) -/
  fixed : Tab (Tab Word)
  fixedBlocks : List Nat
  fixedId : Option Nat
  /-- cascade: the pending set as it stood when a COMMIT came after the FRAME_END of the next boundary had been issued,
  and the blocks of such COMMITs (R401) -/
  held : Option (Tab (Tab Word) × List Nat × Option Nat)
  heldNew : List Nat
  /-- a token is under way; domains it has still to cross; domains crossed (R25, R26) -/
  token : Bool
  waiting : List ClkDom
  crossed : List ClkDom
  /-- number of CORE token crossings, and the configurations in force before each (R25, R113) -/
  epoch : Nat
  old : Tab (Tab (Tab Word))
  fmtReset : Nat
  deriving DecidableEq, Repr

/-! ### Frames and firing (D9) -/

/-- An indigo gate placed for a shot: channel, index, time g (cycle), predicted ToF t (R168). -/
structure Gate where
  ch : Nat
  idx : Nat
  g : Nat
  t : Int
  deriving DecidableEq, Repr

/-- A shot past its code step (R91) and not yet released. -/
structure Shot where
  sid : Nat
  frame : Nat
  /-- the 32-bit SHOT count (R90) -/
  n : Nat
  em : Nat
  nominal : Nat
  d : Nat
  k : Nat
  nsub : Nat
  /-- F: its cycle on the SMP grid, and FINE (25 ps) after it, which every edge and interval of the shot shares -/
  fcyc : Nat
  fine : Nat
  /-- computed edges 1.. (cycles, FINE aside) and what became of each: 0 waiting, 1 driven, 2 not driven -/
  edges : List Nat
  fate : List Nat
  /-- falling edge of the last driven sub-pulse -/
  fall : Nat
  /-- L_n, cycle, FINE aside; the window has ended -/
  listenEnd : Nat
  ended : Bool
  /-- L_n on the present count, and the conversion cycle that takes windows parked then; both move with a TIME_SET load -/
  endAt : Int
  rampAt : Nat
  /-- emitter group (channels), taken at the code step -/
  group : List Nat
  /-- axis A angle at F, axis B angle and direction bin at the code step (R155, R159) -/
  angle : Nat
  angB : Nat
  dir : Nat
  /-- start input (7 none), S, start times of edges 2 and 3 from F, LOWCONF by R94, start window lost or missing -/
  sin : Nat
  s : Option Int
  o2 : Option Int
  o3 : Option Int
  lowconf : Bool
  /-- a start window of edge 1 is parked and not yet processed -/
  startWait : Bool
  epoch : Nat
  claimed : Nat
  done : Nat
  shed : Nat
  /-- channels with a shed, late or ECC-dropped window (R148) -/
  lossy : List Nat
  gates : List Gate
  /-- trigger stamps of this shot by channel (R50, R169) -/
  trigs : List (Nat × Nat)
  /-- zone detections made: channel and gate (0 near, 1 far) (R52) -/
  zoneHits : List (Nat × Nat)
  /-- channels (256+ for starts) with a saturation in the counted span (R46) -/
  satSeen : List Nat
  /-- channels whose neighbour gate is placed (R169) -/
  nbDone : List Nat
  /-- finish tasks made: channels -/
  finMade : List Nat
  /-- evaluated for ranging (R40) -/
  evaluated : Bool
  /-- released, and kept while an engine still works on one of its windows (R120) -/
  released : Bool
  /-- release horizon, us, as in force when L_n passed (R129) -/
  horizon : Nat
  /-- channels with a window whose candidates are stored for a finish task; outstanding finish tasks -/
  coded : List Nat
  finOut : List Nat
  /-- stack keys (channel, gate) that the shot closed and may not open (R171) -/
  noOpen : List (Nat × Nat)
  /-- time stamp of the first trigger in edge 1's interval (R93) -/
  sStamp : Option Nat
  deriving DecidableEq, Repr

/-- The frame header's counters (R155). -/
structure HdrCnt where
  defer : Nat
  forcedSkip : Nat
  shots : Nat
  echoes : Nat
  foreign : Nat
  shed : Nat
  lost : Nat
  withheld : Nat
  refused : Nat
  deriving DecidableEq, Repr

/-- A frame header queued and not yet complete (R155). -/
structure HdrPend where
  frame : Nat
  tempHold : Bool
  forced : Bool
  limit : Bool
  cnt : HdrCnt
  greyMin : Nat
  greyMed : Nat
  greyMax : Nat
  nPred : Nat
  nClamp : Nat
  /-- the frame's first nominal time (ns) and axis B's angle at its code step, once that step has run -/
  first : Option (Nat × Nat)
  deriving DecidableEq, Repr

/-- How the frame in progress is ending (R23, R24, R29): its event, and G as it follows from the windows of its shots, ns. -/
structure Ending where
  ev : Nat
  g : Nat
  forced : Bool
  limit : Bool
  deriving DecidableEq, Repr

/-- Per-emitter fields of FIRESTAT and of the schedule. -/
structure Emit where
  fired : Nat
  withheld : Nat
  posSkip : Nat
  startMiss : Nat
  startSat : Nat
  /-- last nominal time stepped; last nominal time not skipped under POSITION (R89) -/
  lastNom : Option Nat
  lastKept : Option Nat
  /-- FIRE output high, and the time (now) its pulse falls -/
  high : Bool
  fallAt : Nat
  /-- latest measured S (S_ref, R168) -/
  sRef : Option Int
  deriving DecidableEq, Repr

/-- Frame sequencer, fire sequencer and dwell guard. -/
structure Fire where
  lfsr : Nat
  /-- angles of axes A and B as CORE last had them from D19 (R259, R420) -/
  angA : Nat
  angB : Nat
  /-- end of the present frame's opening gap (ns), its gap still open, its opening G (ns) -/
  tf : Nat
  gap : Bool
  gapAt : Nat
  /-- the gap closes a frame; opens one; opens the first frame after ARMED (R24, R144) -/
  closes : Bool
  opens : Bool
  first : Bool
  /-- frames run (a gap has opened since entry to RUN) -/
  started : Bool
  frame : Nat
  ending : Option Ending
  defers : Nat
  anchor : Option Nat
  /-- nominal times of this frame so far (R90) -/
  shotCnt : Nat
  /-- a cascade slave's grid is anchored anew at every T_f (the master's framing) -/
  reanchor : Bool
  /-- scheduled nominal times (POSITION, CROSS): emitter, ns -/
  sched : List (Nat × Nat)
  lastCross : Option Nat
  /-- interval of the position grid that axis A is known to be in (R89) -/
  posCell : Nat
  /-- shots past their code step that a forced boundary has put into the frame it opens: emitter, nominal time (R29) -/
  carry : List (Nat × Nat)
  nextSid : Nat
  shots : List Shot
  emits : Tab Emit
  subSkip : Nat
  velInh : Bool
  faultInh : Bool
  /-- dwell counts keyed by 16 * bin + sub-interval slot; present slot; bins in use as BIN_BITS -/
  dwell : Tab Nat
  dwellSlot : Nat
  dwellBits : Nat
  /-- end of the running sub-interval, and the next speed estimate (now) (R99, R100, R484) -/
  dwellEnd : Nat
  speedAt : Nat
  speedLast : Nat
  belowFor : Nat
  aboveFor : Nat
  cnt : HdrCnt
  hdr : Option HdrPend
  deriving DecidableEq, Repr

/-! ### Front end and zone -/

/-- One input's front end (R36-R51). -/
structure Front where
  range : Nat
  pend : Option Nat
  upCnt : Nat
  downCnt : Nat
  thr : Nat
  armed : Bool
  /-- RANGE as FRONTSTAT shows it: as of the latest pre-fire gate (R62) -/
  shown : Nat
  /-- amber intervals begun and not yet ended: shot, end in 25 ps of the present count (R48) -/
  blankedBy : List (Nat × Nat)
  dcr : Nat
  dcrLim : Bool
  /-- DC-restoration loop settled from this time on (now) -/
  settleAt : Nat
  sat : Bool
  /-- start of the latest assertion and the recent ones that ended: start, end (cycles) -/
  satAt : Nat
  satLog : List (Nat × Nat)
  satCnt : Nat
  stuckMask : Bool
  /-- FAULT_CLEAR has cleared STUCK_MASK and no shot has come since (R51) -/
  maskHeld : Bool
  /-- time stamp of the latest trigger -/
  lastTrig : Option Nat
  deriving DecidableEq, Repr

/-- One ZONE pin (R54). -/
structure ZonePin where
  on : Bool
  /-- time of the last confirmed detection (now) -/
  since : Nat
  deriving DecidableEq, Repr

/-- Zone logic: histories keyed by 2 * channel + gate (newest first: shot, detection), queue entries, pins. -/
structure Zone where
  hist : Tab (List (Nat × Bool))
  /-- one entry per channel: its queued matches (shot, gate) -/
  queue : List (Nat × List (Nat × Nat))
  pins : Tab ZonePin
  deriving DecidableEq, Repr

/-! ### Sampler and converters -/

/-- Park reasons (R72). -/
inductive Reason where
  | trigger | indigo | cal | both
  deriving DecidableEq, Repr

/-- Kinds of park request. -/
inductive ReqKind where
  | trigger | indigo | cal
  deriving DecidableEq, Repr

/-- A park request at the sampler (R66-R71). -/
structure ParkReq where
  ch : Nat
  kind : ReqKind
  /-- time stamp or gate time, cycle (for CAL the anchor's first cycle) -/
  stamp : Nat
  /-- request time, cycle (R68) -/
  at_ : Nat
  gate : Nat
  sid : Option Nat
  deriving DecidableEq, Repr

/-- Stages of a window. -/
inductive WinStage where
  | reserved | parked | converting | converted
  deriving DecidableEq, Repr

/-- A parked or reserved window (R67, R80). -/
structure Win where
  wid : Nat
  ch : Nat
  /-- earlier slot of the pair; ring positions that hold the two slots -/
  slot : Nat
  posA : Nat
  posB : Nat
  spareA : Nat
  spareB : Nat
  segA : Nat
  segB : Nat
  reason : Reason
  trig2 : Bool
  hasTrig : Bool
  /-- time stamp of the first trigger -/
  stamp : Nat
  gate : Nat
  /-- claiming shot of the gate; shot of a calibration park -/
  gateSid : Option Nat
  calSid : Option Nat
  rtag : Nat
  sat : Bool
  /-- park instant as a slot boundary -/
  parkAt : Nat
  /-- conversion cycle of the park instant -/
  cycle : Nat
  /-- first cell, cycle (count in force when parked) -/
  first : Nat
  stage : WinStage
  /-- SAMPLER selected it for a raw record, by the settings at its requests' decisions (R83, R85) -/
  raw : Bool
  codes : List Nat
  /-- DEVTIME jumped while the window waited: it still converts with its set (R96) -/
  carried : Bool
  /-- handed to CORE; segments back in the pool -/
  handed : Bool
  rejoined : Bool
  deriving DecidableEq, Repr

/-- One channel's ring and pool (R64, R74, R75). -/
structure SampCh where
  /-- ring positions whose segment differs from the position's own number -/
  ring : Tab Nat
  pool : List Nat
  /-- redundant segments left -/
  redun : List Nat
  /-- the segment that a redundant segment replaced (R194) -/
  repl : Tab Nat
  retired : List Nat
  /-- segments to be replaced when met in the ring or at the end of their conversion -/
  toRetire : List Nat
  poolSize : Nat
  parkOvf : Nat
  gateOvf : Nat
  lateMiss : Nat
  parkAdj : Nat
  calOvf : Nat
  filled : Bool
  deriving DecidableEq, Repr

/-- Samplers and converters. -/
structure Samp where
  chs : Tab SampCh
  reqs : List ParkReq
  wins : List Win
  nextWid : Nat
  /-- conversion in hand: cycle number, ramp ended -/
  conv : Option (Nat × Bool)
  /-- gates issued by the predictor and not yet at the sampler: channel, index, g, shot -/
  gateReqs : List (Nat × Nat × Nat × Nat)
  /-- calibration parks asked for and not yet at the sampler: channel, anchor slot, shot -/
  calReqs : List (Nat × Nat × Option Nat)
  deriving DecidableEq, Repr

/-! ### Engines, reorder stage, decisions -/

/-- A candidate of steps 5-7 (R123). -/
structure Cand where
  e : Int
  amp : Nat
  width : Nat
  sat : Bool
  lowconf : Bool
  indigo : Bool
  rtag : Nat
  deriving DecidableEq, Repr

/-- A stacked window (R172). -/
structure StkWin where
  ch : Nat
  idx : Nat
  sid : Nat
  dir : Nat
  rtag : Nat
  /-- first cell from F, u of 0.78125 ps -/
  first : Int
  x : List Int
  cnt : List Nat
  sat : Bool
  s : Int
  /-- fewer components than K -/
  short : Bool
  deriving DecidableEq, Repr

/-- What an engine works on (R109, R111). -/
inductive Task where
  | win (w : Win) (sid : Nat) (epoch : Nat)
  | cal (w : Win) (epoch : Nat)
  | stk (w : StkWin) (epoch : Nat)
  | fin (sid c : Nat) (epoch : Nat)
  | start (w : Win) (epoch : Nat)
  deriving DecidableEq, Repr

/-- One engine (R110, R130, R131, R135). -/
structure Engine where
  queue : List Task
  cur : Option Task
  retired : Bool
  reload : Bool
  eccCorr : Nat
  eccUnc : Nat
  stolen : Nat
  deriving DecidableEq, Repr

/-- An echo in a reorder slice (R122, R125, R149, R153). -/
structure Echo where
  ch : Nat
  sid : Nat
  e : Int
  amp : Nat
  width : Nat
  sat : Bool
  lowconf : Bool
  indigo : Bool
  stacked : Bool
  stale : Bool
  rtag : Nat
  /-- unused candidate of a coded shot (R148) -/
  foreignCode : Bool
  /-- a stack's own S and direction bin -/
  sOwn : Option Int
  dirOwn : Option Nat
  tof : Nat
  cls : Nat
  eidx : Nat
  gap : Bool
  nearFlag : Bool
  deriving DecidableEq, Repr

/-- A raw window record held in a slice (R84): its shot and its bytes. -/
structure RawRec where
  sid : Nat
  ch : Nat
  bytes : List Byte
  deriving DecidableEq, Repr

/-- Per-channel counters of ENGSTAT and the GAP-pending bit (R117, R135). -/
structure EngCh where
  shed : Nat
  late : Nat
  eccDrop : Nat
  gapPend : Bool
  /-- ToFs of the last 4 released shots, newest first (R147) -/
  hist : List (List Nat)
  deriving DecidableEq, Repr

/-- One channel's grey estimate (R139-R142). -/
structure Grey where
  n : Nat
  sx : Int
  sxx : Int
  sy : Int
  syy : Int
  lastTag : Option Nat
  rejects : Nat
  sigX : Nat
  sigY : Nat
  rg : Nat
  src : Nat
  thr : Nat
  clamped : Bool
  /-- DCR readings of this frame (sum, number) and mean of the last frame (sum, number) -/
  dcrSum : Nat
  dcrNum : Nat
  dPrevSum : Nat
  dPrevNum : Nat
  /-- shots counted toward the next grey park, and toward the next PED park (R186) -/
  shotsGrey : Nat
  shotsPed : Nat
  /-- the channel's word of GREYSTAT, as the latest boundary wrote it (R145) -/
  word : Nat
  deriving DecidableEq, Repr

/-- Engines and the reorder stage. -/
structure Eng where
  engines : Tab Engine
  startQ : List Task
  chs : Tab EngCh
  /-- candidates of coded shots: shot, channel, window, candidate (R126) -/
  cands : List (Nat × Nat × Nat × Cand)
  /-- finish tasks waiting outside a full queue: shot, channel, epoch (R486) -/
  finWait : List (Nat × Nat × Nat)
  echoes : List Echo
  raws : List RawRec
  mcActive : Nat
  mcSlate : Nat
  slateReady : Bool
  /-- epoch that the latest swap of the banks began: work of an earlier one reads the other bank (R25, R128) -/
  mcSince : Nat
  /-- microcode stores by quarter: ACTIVE bank, SLATE bank (R128) -/
  stores : Tab (List Byte × List Byte)
  /-- µs counted of the spells with a full slice that have ended; the first µs that none of them has counted (R121) -/
  reorderFull : Nat
  fullNext : Nat
  /-- grey estimates in force for work of an earlier epoch (R113, R143) -/
  oldGreys : Tab (Tab Grey)
  /-- a slice is full: the first µs that this spell counts (R121) -/
  fullSince : Option Nat
  deriving DecidableEq, Repr

/-! ### Stack memory -/

/-- One histogram (R160, R164). -/
structure Hist where
  bins : Tab Nat
  echoes : Nat
  oor : Nat
  satb : Bool
  geom : Bool
  firstFrame : Nat
  lastFrame : Nat
  /-- frame in which it was last started afresh (R167); none: with all others, in the stack memory's `bornIn` -/
  freshIn : Option Nat
  deriving DecidableEq, Repr

/-- One peak-table version (R167): frame tag and entries (bin, count). -/
structure Peaks where
  tag : Nat
  valid : Bool
  entries : List (Nat × Nat)
  deriving DecidableEq, Repr

/-- A component accepted for a stack (R170): its shot, gate cell, x3, S. -/
structure Comp where
  sid : Nat
  gateCell : Int
  x : List Int
  /-- the shot's S, once it is known -/
  s : Option Int
  sat : Bool
  rtag : Nat
  deriving DecidableEq, Repr

/-- An open stack or one whose stacked window waits for its components (R171, R172). -/
structure Stack where
  ch : Nat
  idx : Nat
  em : Nat
  dir : Nat
  rtag : Nat
  t : Int
  /-- g - F, 25 ps -/
  goff : Int
  count : Nat
  comps : List Comp
  /-- shots counted whose window may still be handed over -/
  owed : List Nat
  /-- claiming shot once completed or closed -/
  claim : Option Nat
  deriving DecidableEq, Repr

/-- A histogram read by a spill: key 128 * channel + direction, BIN_K, ZOOM, GEOM (R163, R164). -/
structure SpillItem where
  key : Nat
  binK : Nat
  zoom : Nat
  geom : Bool
  h : Hist
  deriving DecidableEq, Repr

/-- A spill in progress or to come (R163): STACK.SPILL and STATION as it began, and its histograms not yet read whole. -/
structure Spill where
  dest : Nat
  station : Nat
  items : List SpillItem
  reason : Nat
  frame : Nat
  /-- time (now) at which the first histogram's reading began -/
  readAt : Nat
  /-- the first histogram is read and its record waits: the first µs that the wait counts -/
  since : Option Nat
  /-- direction whose set becomes the free one at the end (eviction) -/
  victim : Option Nat
  /-- a change of geometry began it: every echo that comes belongs to the next integration -/
  closed : Bool
  deriving DecidableEq, Repr

/-- A spilled histogram on its way to a station stack (R166). -/
structure Merge where
  station : Nat
  ch : Nat
  dir : Nat
  binK : Nat
  zoom : Nat
  first : Nat
  last : Nat
  echoes : Nat
  bins : Tab Nat
  deriving DecidableEq, Repr

/-- Stack memory, predictor and stack unit (D14). -/
structure Stk where
  /-- histograms keyed 128 * channel + direction -/
  hists : Tab Hist
  /-- directions holding a set, least recently counted first -/
  sets : List Nat
  freeIdle : Bool
  sweep : Bool
  setsHeld : Nat
  framesSince : Nat
  /-- a boundary has passed since D14 came up (R419) -/
  live : Bool
  spills : List Spill
  /-- frame in which every histogram was last started afresh -/
  bornIn : Option Nat
  merges : List Merge
  /-- versions keyed 2 * (128 * channel + direction) + version -/
  peaks : Tab Peaks
  openStacks : List Stack
  histMiss : Nat
  stkDone : Nat
  stkMiss : Nat
  stkDisc : Nat
  stMismatch : Nat
  stDrop : Nat
  /-- µs of the waits that have ended; the first µs that none of them has counted (R163) -/
  spillWait : Nat
  waitNext : Nat
  deriving DecidableEq, Repr

/-! ### Return calibration -/

/-- One temperature set (R192); temperature in 0.125 C. -/
structure TSet where
  t : Int
  d : Int
  g0 : Nat
  g1 : Nat
  g2 : Nat
  ped : Nat
  deriving DecidableEq, Repr

/-- A slewed quantity (R193): o_0, o_j and j. -/
structure Slew where
  o0 : Int
  o : Int
  j : Nat
  deriving DecidableEq, Repr

/-- One channel's calibration data (R177, R184, R199). Per-cell tables are keyed 16 * segment + cell. -/
structure CalCh where
  sets : List TSet
  rsel : List Nat
  /-- per-cell shape PED - PED_MEAN (1/8 code) and delta (u); measured marks per segment -/
  shape : Tab Int
  delta : Tab Int
  pedMeas : List Nat
  widthMeas : List Nat
  /-- applied values at the last boundary -/
  apD : Int
  apG0 : Nat
  apG1 : Nat
  apG2 : Nat
  apPed : Int
  slD : Slew
  slG0 : Slew
  slG1 : Slew
  slG2 : Slew
  slP : Slew
  /-- slew of each cell's PED and delta, keyed as above -/
  slShape : Tab Slew
  slDelta : Tab Slew
  /-- phase data: PED (windows per segment, code sums per cell), WIDTH (hits per cell, hits per ring
  position), GAIN (pairs, amplitude sums in a and a+1, per ratio), ZERO (pulses, E sums) -/
  pedWins : Tab Nat
  pedSum : Tab Nat
  hits : Tab Nat
  posHits : Tab Nat
  gainN : Tab Nat
  gainA : Tab Int
  gainB : Tab Int
  zeroN : Nat
  zeroC : Int
  zeroZ : Int
  quiet : Nat
  pedRes : Nat
  widthRes : Nat
  gainRes : Nat
  zeroRes : Nat
  /-- segments in service when the run's PED and WIDTH phases ended, which they measured (R186, R187) -/
  runPedSegs : List Nat
  runWidthSegs : List Nat
  /-- last measured ratios, as the two amplitude sums, by lower range (R189) -/
  ratio : Tab (Int × Int)
  /-- results of the run in progress -/
  runPed : Nat
  runWidth : Nat
  runGain : Nat
  runZero : Nat
  needGain : Bool
  defWait : Bool
  /-- results applied without a temperature: one set at every temperature (R182) -/
  single : Option TSet
  /-- declared stuck low in this run (R187) -/
  runStuck : Bool
  /-- range to restore after a test pulse, tests made, and a pair's first half: range tag, amplitude (R189) -/
  testR : Option Nat
  tests : Nat
  gainHalf : Option (Nat × Int)
  held : Bool
  stuckLow : Bool
  retireBlk : Bool
  deriving DecidableEq, Repr

/-- One group's run (R181, R199). Phases: 1 temperature read, 2 PED, 3 WIDTH, 4 GAIN, 5 ZERO, 6 apply. -/
structure CalGrp where
  phase : Nat
  phases : Nat
  tStart : Option Int
  tEnd : Option Int
  /-- end temperature being read -/
  ending : Bool
  hold : Bool
  cmd : Bool
  tempHold : Bool
  noTemp : Bool
  tLast : Int
  runs : Nat
  /-- outcome of the read in hand: 0 none yet, 1 good, 2 STALE; RCAL words 1-7 the run uses (R181) -/
  readRes : Nat
  rcal : List Word
  armed : Bool
  /-- shots counted for the ZERO phase (R191); slot of the last park made without a shot (R186, R191) -/
  shots : Nat
  parkSlot : Option Nat
  /-- temperature forwarded to CORE: value, fresh -/
  temp : Option Int
  fresh : Bool
  deriving DecidableEq, Repr

/-- Return calibration. -/
structure Cal where
  chs : Tab CalCh
  grps : Tab CalGrp
  defaults : Bool
  storeBusy : Bool
  storeErr : Bool
  storedSeq : Nat
  /-- groups with results not yet stored; store due -/
  unsaved : List Nat
  /-- groups whose runs a supervisor restart abandoned; group of the last completed run (R180) -/
  again : List Nat
  lastGrp : Option Nat
  /-- frame being written (0-3 bank A, 4-7 bank B), its writes done (the erase first), retried; the record -/
  storing : Option (Nat × Nat × Bool)
  storeData : List Byte
  /-- the 15-minute interval of R459 runs -/
  interval : Bool
  lfsr : Nat
  /-- gated pulses seen on one input of a pair: first cell's cycle, input, echo time (R191) -/
  pulses : List (Nat × Nat × Int)
  /-- parks that hold a gated pulse: input, anchor slot, shot (R189, R191) -/
  gated : List (Nat × Nat × Option Nat)
  /-- corrections in force for work of an earlier epoch (R25, R184) -/
  oldChs : Tab (Tab CalCh)
  /-- delays of each frame with an unreleased shot: frame -> channel -> D (R97) -/
  delays : Tab (Tab Int)
  deriving DecidableEq, Repr

/-! ### Housekeeping -/

/-- A table entry's own memory (R204, R211, R240). -/
structure HkEnt where
  gain : Nat
  up : Nat
  last : Nat
  has : Bool
  bad : Bool
  /-- engineering value of the last result, Q16.16 -/
  eng : Int
  deriving DecidableEq, Repr

/-- An injected request (R217): three words of an entry and the source: tag, or group of a
supervisor read. -/
structure HkInj where
  w0 : Word
  w1 : Word
  w2 : Word
  tag : Option Nat
  grp : Nat
  deriving DecidableEq, Repr

/-- Sequencer phases (R215, R220, R223). -/
inductive HkPhase where
  | off | waitPass | toSwitch | burnout | delay | refWait | pwmWait | converting | selfcal
  deriving DecidableEq, Repr

/-- What a conversion was made with, for changes under R216. -/
structure HkSetup where
  pos : Nat
  neg : Nat
  gain : Nat
  ref : Nat
  exc : Nat
  filter : Nat
  tdac : Bool
  deriving DecidableEq, Repr

/-- A set of OFFSET and GAINF (R224). -/
structure HkSet where
  t : Int
  off : Int
  gainf : Nat
  deriving DecidableEq, Repr

/-- Housekeeping converter, excitation and bias outputs (D18), with the D0 result buffer. -/
structure Hk where
  phase : HkPhase
  entry : Nat
  rep : Nat
  passRun : Bool
  passes : Nat
  ents : Tab HkEnt
  prev : Option HkSetup
  change : Bool
  settle : Nat
  /-- results still to carry EXC_CHG; an excitation change has no result yet (R216) -/
  excLeft : Nat
  excNew : Bool
  /-- the delay in hand is the settling time an automatic gain change inserts (R216) -/
  gainWait : Bool
  /-- HKC and EXC blocks of the configuration before the last boundary, under which the entry in hand completes (R25) -/
  held : Option (List (Nat × List Word))
  /-- SEQ_EN fell while the conversion in hand ran (R215) -/
  stopDue : Bool
  /-- pin the test DAC is connected to (R225) -/
  tdac : Option Nat
  /-- sources that were on at the declaration that ended the entry in hand (R238) -/
  declOn : List Nat
  inj : List HkInj
  /-- injected request being converted -/
  injCur : Option HkInj
  /-- words and gain of the entry switched to (R215) -/
  curEnt : Word × Word × Word
  curGain : Nat
  /-- the entry in hand ended in a declaration (R238) -/
  declared : Bool
  /-- the crystal is back and is taken at the next conversion end (R417) -/
  xtalBack : Bool
  /-- background recalibration: 0 offset slot next, 1 full-scale slot next -/
  bgStage : Nat
  /-- entry and repeat to restart after injected work -/
  resumeAt : Option (Nat × Nat)
  paused : Nat
  pauseAmber : Bool
  /-- shots whose notice has arrived and paused the modulator -/
  amb : List Nat
  pausePin : Bool
  pinLevel : Bool
  /-- shots noticed whose E_last has not passed -/
  notices : List Nat
  refInt : Bool
  refExt : Bool
  refSup : Bool
  pwmAbsent : Bool
  uncal : Bool
  selfBusy : Bool
  selfWait : Bool
  /-- requests queued before the self-calibration that waits (R220, R222) -/
  selfBefore : Nat
  bgBusy : Bool
  bgGain : Nat
  bgOffVal : Int
  bufOvr : Bool
  settleCnt : Nat
  blankedCnt : Nat
  abortCnt : Nat
  timerMiss : Nat
  refFail : Nat
  blankAbort : Nat
  /-- results formed and not yet in the buffer: 64-bit words -/
  outQ : List Nat
  buf : Tab Nat
  rd : Nat
  wr : Nat
  unread : Nat
  sets : Tab (List HkSet)
  tempHk : Option Int
  /-- latest VHK monitor result, mV in Q16.16 -/
  vhk : Option Int
  onInt : Bool
  /-- excitation sources on: level and pin (MODE in bit 3 of the level) -/
  src : Tab (Nat × Nat)
  excSet : Nat
  boV0 : Option Int
  openCnt : Nat
  shortCnt : Nat
  boOpen : Nat
  biasHold : List Nat
  biasOut : Tab Nat
  biasTgt : Tab Nat
  deriving DecidableEq, Repr

/-! ### Steering -/

/-- Axis modes (R270, R280). -/
inductive AxMode where
  | off | open | velocity | position | profile | brake
  deriving DecidableEq, Repr

/-- Biquad histories x1 x2 y1 y2 (R266). -/
structure Biquad where
  x1 : Int
  x2 : Int
  y1 : Int
  y2 : Int
  deriving DecidableEq, Repr

/-- A blend remainder (R272): value at its start, samples since, length. -/
structure Blend where
  rho0 : Int
  k : Nat
  len : Nat
  deriving DecidableEq, Repr

/-- A mode change waiting (R270, R275): it waits for the boundary token, was answered PENDING, is
answered OK after its sample. -/
structure PendMode where
  mode : AxMode
  wait : Bool
  /-- the boundary it waits for came while a sample was in progress: it is for the sample after that (R270) -/
  crossed : Bool
  pended : Bool
  req : Option Req
  deriving DecidableEq, Repr

/-- A digital input filter (R254): the level accepted last, none before the first sample after power-up, and the samples that
another level has held. -/
structure PinFilt where
  level : Option Bool
  run : Nat
  deriving DecidableEq, Repr

/-- One steering axis. -/
structure Axis where
  p : Int
  zRef : Int
  homed : Bool
  /-- filters of ENCA, ENCB and ENCZ -/
  encA : PinFilt
  encB : PinFilt
  encZ : PinFilt
  /-- the next index is a first index (R256) -/
  idxFirst : Bool
  /-- last SSI reading, velocity in counts per sample and the cycle it completed (R258, R259) -/
  ssiLast : Option Nat
  ssiVel : Int
  ssiAt : Nat
  /-- P latched at the sample's reload point (R264) -/
  pLatch : Int
  mode : AxMode
  faultActive : Bool
  axFault : Bool
  moveDone : Bool
  isatV : Bool
  isatP : Bool
  osat : Bool
  cause : Nat
  vel : Int
  ferr : Int
  encErr : Nat
  feCnt : Nat
  fltCnt : Nat
  pPrev : Int
  iP : Int
  iV : Int
  rhoP : Blend
  rhoV : Blend
  bq1 : Biquad
  bq2 : Biquad
  w : Int
  u : Int
  vCmd : Int
  vCmdSat : Int
  uSat : Int
  genPos : Int
  genV : Int
  genA : Int
  target : Int
  target2 : Option Int
  targetV : Int
  drive : Int
  cmp : Nat
  cmpNext : Option Nat
  /-- cycle of the last reload point, whether it was the peak, and CMP before it (R261, R262) -/
  reloadAt : Nat
  peak : Bool
  cmpWas : Nat
  /-- the STEER block under which the sample in progress completes (R273) -/
  held : Option (List Word)
  reloads : Nat
  due : Bool
  pendMode : Option PendMode
  pendMove : Option (Int × Option Int)
  feRun : Nat
  deriving DecidableEq, Repr

/-! ### Ports and flash -/

/-- An entry of the command buffer (R289, R489): a packet, or a short entry the port answers. -/
structure CmdEntry where
  bytes : List Byte
  /-- status the port itself calls for, with OPC and SEQ of the header -/
  own : Option (Byte × Byte × Byte)
  org : Origin
  deriving DecidableEq, Repr

/-- A reply packet waiting (R312). -/
structure Reply where
  org : Origin
  opc : Byte
  seq : Byte
  status : Byte
  src : Byte
  payload : List Word
  deriving DecidableEq, Repr

/-- A command-unit transaction in progress (R284). -/
structure Trans where
  statusByte : Byte
  /-- none before byte 0 is complete -/
  action : Option Byte
  bytes : List Byte
  damaged : Bool
  /-- header rejected (no reply), or length rejected -/
  badHdr : Bool
  tooLong : Bool
  /-- bytes of the reply shifted, and bytes of it loaded into the transmit queue so far (R287) -/
  sent : Nat
  loaded : Nat
  /-- bytes of the receive queue not yet taken by SUP (R290) -/
  rxq : Nat
  cleanRead : Bool
  lasterr : Bool
  deriving DecidableEq, Repr

/-- States of the IEEE 1149.1 controller (R469). -/
inductive TapSt where
  | logicReset | idle | selectDr | captureDr | shiftDr | exit1Dr | pauseDr | exit2Dr | updateDr
  | selectIr | captureIr | shiftIr | exit1Ir | pauseIr | exit2Ir | updateIr
  deriving DecidableEq, Repr

/-- The test access port: controller state, instruction in force, and the registers that shift. -/
structure Tap where
  st : TapSt
  ir : List Bool
  irShift : List Bool
  dr : List Bool
  deriving DecidableEq, Repr

/-- The command port: command unit, telemetry unit, replies and the telemetry mirror; the test access port. -/
structure Port where
  tr : Option Trans
  /-- command unit ignores the pins until CP_CSn rises and falls -/
  ignore : Bool
  csLow : Bool
  telOn : Bool
  tap : Tap
  /-- whole bytes shifted out on CP_SDO in the last command transaction -/
  sdo : List Byte
  telPos : Nat
  telPrev : Nat
  /-- SPI mode 3, as CP_SCK's level showed at the last fall of a select (R282) -/
  mode3 : Bool
  lasterr : Bool
  buf : List CmdEntry
  replies : List Reply
  cmdExtra : Nat
  cmdShort : Nat
  cmdBadact : Nat
  cmdNrdy : Nat
  cmdRefused : Nat
  cmdBadhdr : Nat
  cmdTimeout : Nat
  telShort : Nat
  telColl : Nat
  telNrdy : Nat
  telRepeat : Nat
  tlLenM1 : Nat
  /-- list positions: FRESH in bit 7, TAG in bits [6:0] -/
  tl : Tab Nat
  tlNew : Bool
  /-- item values by tag: version, value; version last sent by list position -/
  items : Tab (Nat × Nat)
  sentVer : Tab Nat
  /-- versions at the last TELE frame, by list position (R353) -/
  teleVer : Tab Nat
  deriving DecidableEq, Repr

/-- A flash operation in progress (R305-R307): program of bytes, or erase of a length, with its user:
0 window, 1 calibration store, 2 slot programming, 3 slot erase, 4 boot header erase; and since when (now). -/
structure FlashOp where
  off : Nat
  data : List Byte
  erase : Nat
  user : Nat
  since : Nat
  deriving DecidableEq, Repr

/-- A decryption range of a slot (R304): flash offset, length, image key, IV. -/
structure DecRange where
  start : Nat
  length : Nat
  key : Nat
  iv : List Nat
  deriving DecidableEq, Repr

/-- The flash port. -/
structure Flash where
  bytes : Tab Byte
  used : Bool
  table : FlashTable
  mode : Nat
  addr4 : Bool
  clk : Nat
  /-- quad enable is set in the flash (R302) -/
  quad : Bool
  /-- decryption ranges keyed 4 * slot + part type (R304) -/
  ranges : Tab DecRange
  page : Option (Nat × List Byte)
  op : Option FlashOp
  waitRead : Bool
  timeouts : Nat
  verify : Nat
  wprot : Nat
  progs : Nat
  erases : Nat
  deriving DecidableEq, Repr

/-! ### Stream link -/

/-- A cargo frame sent (R344, R345): lane, LFN, VS, FILL, FH, SOR, RT and its cargo bytes. -/
structure Cargo where
  lane : Nat
  lfn : Nat
  vs : Nat
  fill : Nat
  fh : Bool
  sor : Bool
  rt : Bool
  bytes : List Byte
  deriving DecidableEq, Repr

/-- Control blocks sent (R348): type, lane, bytes 1-7. -/
structure Ctl where
  typ : Nat
  lane : Nat
  content : List Nat
  deriving DecidableEq, Repr

/-- A frame ready for its stream: FH, SOR, RT and cargo bytes, closed (no record may join). -/
structure Ready where
  fh : Bool
  sor : Bool
  rt : Bool
  bytes : List Byte
  closed : Bool
  deriving DecidableEq, Repr

/-- Link states (R355, R365). -/
inductive LinkState where
  | off | detect | train | align | up | down
  deriving DecidableEq, Repr

/-- One lane pair. -/
structure Lane where
  rxCrc : Nat
  rxSync : Nat
  txRpt : Nat
  txState : Nat
  rxState : Nat
  txLeaving : Bool
  lock : Bool
  degraded : Bool
  /-- retraining within UP: 0 no, 1 TRAIN, 2 ALIGN, 3 waking from DEEP -/
  retrain : Nat
  partner : Bool
  partnerReady : Bool
  partnerAck : Bool
  aligns : Nat
  pre : Nat
  post : Nat
  deriving DecidableEq, Repr

/-- The stream link. -/
structure Link where
  st : LinkState
  rxReady : Bool
  lanes : Tab Lane
  txUse : List Nat
  trainTo : Nat
  retries : Nat
  framesTx : Nat
  credErr : Nat
  teleSkip : Nat
  rxDrop : Nat
  /-- frames sent since link-up: bits [15:0] are LFN -/
  lfn : Nat
  sent : Tab Nat
  cum : Tab Nat
  ownCum : Nat
  ownSent : Nat
  /-- frames waiting per stream, oldest first -/
  ready : Tab (List Ready)
  turn : Nat
  out : List Cargo
  ctl : List Ctl
  /-- bytes of the CTRL packet being received; none: frames up to the next SOR are discarded (R354) -/
  rx : Option (List Byte)
  /-- CTRL frames held in the receive buffer for want of room in the command buffer: SOR and cargo; none: a damaged one
  (R354) -/
  rxQ : List (Option (Bool × List Byte))
  /-- instant of a stream's latest record (R347) -/
  fed : Tab Nat
  /-- instant of the latest TELE frame, or of link-up (R353) -/
  teleAt : Nat
  /-- instant the state was entered (R355, R356) -/
  since : Nat
  /-- LANE_STATE answered when its lanes sleep -/
  laneReq : Option Req
  deriving DecidableEq, Repr

/-! ### Archive -/

/-- Stages of a mount (R373) and of index upkeep. -/
inductive MountStage where
  | perst | linkWait | enableWait | identify | features | namespaceId | queues | cache | health | recover | initWrite
  deriving DecidableEq, Repr

/-- What an NVMe command is for: a step of a mount, a chunk of a ring's extent and slot, an extent's deallocation, a
superblock copy, a checkpoint's parts, a merge's read and write, the health log. -/
inductive NvmeUse where
  | mount (st : MountStage) (step : Nat)
  | chunk (ring ext slot : Nat)
  | dealloc (ext : Nat)
  | superblock (copy : Nat)
  | flush1
  | checkpoint
  | flush2
  | mergeRead (slot : Nat) (m : Merge)
  | mergeWrite (m : Merge)
  | health
  deriving DecidableEq, Repr

/-- A command outstanding at the drive (R371): where it writes or reads, the bytes it writes or how many it reads. A transfer
longer than MDTS goes in several commands (R370): what its later ones write, what they read, what the earlier ones read. -/
structure NvmeCmd where
  cid : Nat
  use : NvmeUse
  addr : Nat
  data : List Byte
  len : Nat
  more : List Byte
  left : Nat
  got : List Byte
  /-- instant of its issue -/
  at_ : Nat
  retried : Bool
  deriving DecidableEq, Repr

/-- A recovery in progress (R384): the first copy read of the superblock or of the checkpoint, the extent whose header is
read, the extents whose entry changed, those whose chunk headers are still to be read. -/
structure Recov where
  held : List Byte
  ext : Nat
  changed : List Nat
  todo : List Nat
  deriving DecidableEq, Repr

/-- A ring's open extent and chunk (R377, R378). -/
structure Ring where
  ext : Option Nat
  /-- next chunk slot -/
  slot : Nat
  /-- payload of the open chunk; offset of the first item starting in it -/
  buf : List Byte
  first : Option Nat
  /-- instant the open chunk took its first byte (R378) -/
  opened : Nat
  deriving DecidableEq, Repr

/-- The archive port (D17). -/
structure Arch where
  mountRes : Nat
  mounted : Bool
  suspended : Bool
  wearStop : Bool
  budgetHold : Bool
  running : List Nat
  gen : Nat
  width : Nat
  l0sTx : Bool
  l0sRx : Bool
  l0sCap : Bool
  pct : Nat
  crit : Nat
  e : Nat
  ckSeq : Nat
  writeErr : Nat
  timeouts : Nat
  dropWave : Nat
  dropEcho : Nat
  dropHist : Nat
  budgetDrop : Nat
  perstLow : Bool
  everMounted : Bool
  mount : Option (MountStage × Nat × Bool)
  cmds : List NvmeCmd
  nextCid : Nat
  /-- superblock fields: SB_SEQ, ST_SLOTS, quotas, directory (slot -> station) -/
  sbSeq : Nat
  stSlots : Nat
  quotas : List Nat
  dir : Tab Nat
  lba : Nat
  /-- extents in use: extent -> (ring, EXT_SEQ, FILL, FRAME of its first item) -/
  exts : Tab (Nat × Nat × Nat × Nat)
  nextSeq : Nat
  rings : Tab Ring
  /-- chunks that wait for their extent's deallocation: ring, extent, slot, bytes -/
  staged : List (Nat × Nat × Nat × List Byte)
  buckets : List Nat
  flushing : Bool
  /-- merge whose directory entry is being written -/
  merging : Option Merge
  /-- records destined for the archive: ring and item bytes -/
  inQ : List (Nat × List Byte)
  /-- a command has timed out since the last mount began (R372) -/
  timedOut : Bool
  /-- the controller's longest transfer, 0 for no limit; CAP.MQES; I/O queue pairs created (R370) -/
  mdts : Nat
  mqes : Nat
  pairs : Nat
  recov : Recov
  deriving DecidableEq, Repr

/-! ### Cascade -/

/-- Messages a device puts on the ring (R394). -/
inductive RingMsg where
  | heartbeat (frame seq : Nat)
  | sched (ev : SchedEvent)
  | pkt (src dst : Nat) (bytes : List Byte) (last : Bool)
  | fault (sender src : Nat)
  | loss (sender : Nat)
  | enum (entries : List EnumEntry)
  | ack (sender : Nat) (kind : AckKind)
  | timeSet (v : Nat)
  | go
  | fallbackOrder
  | updOrder (step : Nat)
  deriving DecidableEq, Repr

/-- A forwarded request: its destination, opcode, and its reply once returned (R316). -/
structure Fwd where
  dest : Nat
  opc : Byte
  req : Req
  reply : Option Reply
  deriving DecidableEq, Repr

/-- The cascade link. -/
structure Casc where
  enumOk : Bool
  aligned : Bool
  ringUp : Bool
  breakAt : Nat
  waitBreak : Bool
  /-- sender of the first LOSS since a HEARTBEAT last returned -/
  lossFrom : Option Nat
  present : List Nat
  /-- states other devices are known to be in are the host's; the ring's own counters -/
  ringLoss : Nat
  syncErr : Nat
  fwdTo : Nat
  crcErr : Nat
  ringSeq : Nat
  /-- schedule events known: the event, the cycle its first good copy came, acted on -/
  events : List (SchedEvent × Nat × Bool)
  out : List RingMsg
  enumReq : Option (Req × Bool)
  /-- TIME_SET: devices whose ACK is awaited; all arrived -/
  tsWait : Option (List Nat)
  /-- the request being forwarded, by ascending destination -/
  fwd : List Fwd
  /-- fragments in reassembly by source -/
  frag : Tab (List Byte)
  /-- update stage: acknowledgements awaited -/
  updWait : List Nat
  /-- every outcome so far is good -/
  updOk : Bool
  /-- the event whose first copy came damaged (R394) -/
  badSched : Option SchedEvent
  /-- instant of the latest rising edge the master drives on FSYNC (R397, R398) -/
  fsyncAt : Option Nat
  deriving DecidableEq, Repr

/-! ### Power, update, faults -/

/-- Power domains and clocks (R418-R421). -/
structure Pwr where
  /-- domains on, and on but not yet up -/
  on : List Nat
  coming : List Nat
  /-- switches left of the request in hand (domain, on), the request, its whole set -/
  steps : List (Nat × Bool)
  req : Option (Req × List Nat)
  draining : List Nat
  /-- earliest instant of the request's next switching (R418) -/
  nextAt : Nat
  /-- instant at which a draining quarter goes off whatever remains (R420) -/
  drainBy : Tab Nat
  refLost : Bool
  lrefLost : Bool
  aprefLost : Bool
  hkxLost : Bool
  vsl : Bool
  vap : Bool
  vhk : Bool
  refPresent : Bool
  lrefPresent : Bool
  aprefPresent : Bool
  hkxPresent : Bool
  deriving DecidableEq, Repr

/-- A boot header record (R428). -/
structure BootRec where
  seq : Nat
  rdmode : Nat
  active : Nat
  trial : Option Nat
  trials : Nat
  stA : Nat
  stB : Nat
  cascade : Bool
  reason : Nat
  confirmS : Nat
  deriving DecidableEq, Repr

/-- Firmware update (R427-R448). -/
structure Upd where
  stage : Nat
  reason : Nat
  running : Nat
  counter : Nat
  count : Nat
  total : Nat
  /-- bytes accepted and not yet programmed, from offset `programmed` -/
  staging : List Byte
  programmed : Nat
  erased : Nat
  download : Bool
  ending : Bool
  /-- a flash operation of the download has failed -/
  bad : Bool
  /-- activation and restarts: 0 none, 1 checking, 2 checked (a slave awaits the order, the master the PENDING
  acknowledgements), 3 awaiting GO, 4 boot choice running, 5 image starting, 6 restart due -/
  act : Nat
  actMaster : Bool
  confirmLeft : Nat
  timer : Bool
  versSup : Nat
  versEng : Nat
  versStr : Nat
  versLnk : Nat
  /-- versions loaded and awaiting the next boundary -/
  versNext : Option (Nat × Nat × Nat)
  /-- slot that failed, or A after a strap entry (R445); slot being downloaded -/
  recovSlot : Nat
  slot : Nat
  /-- UPD_CONFIRM that waits for the other devices' outcomes (R442) -/
  confirmReq : Option Req
  /-- restart is that of an activation, a fallback or a lockstep mismatch -/
  warm : Bool
  deriving DecidableEq, Repr

/-- One fault instance (R450): counts of sub-intervals by index, LASTING. -/
structure FltInst where
  counts : List (Nat × Nat)
  lasting : Bool
  deriving DecidableEq, Repr

/-- An event log record (R455), its CRC aside. -/
structure LogRec where
  seq : Nat
  devtime : Nat
  source : Nat
  kind : Nat
  inst : Nat
  detail : Nat
  frame : Nat
  uptime : Nat
  deriving DecidableEq, Repr

/-- Fault manager (R449-R460). -/
structure Flt where
  /-- instances keyed 65536 * source + instance -/
  insts : Tab FltInst
  log : List LogRec
  /-- records written since the log was empty, modulo the ring -/
  logPos : Nat
  logSeq : Nat
  logDrop : Nat
  budget : Nat
  /-- events raised by hardware and not yet classified (R451): source, instance, detail -/
  queue : List (Nat × Nat × Nat)
  deriving DecidableEq, Repr

/-- The whole block. -/
structure State where
  pending : List Instr
  sys : Sys
  cfg : Cfg
  fire : Fire
  fronts : Tab Front
  zone : Zone
  samp : Samp
  eng : Eng
  greys : Tab Grey
  stk : Stk
  cal : Cal
  hk : Hk
  axA : Axis
  axB : Axis
  port : Port
  flash : Flash
  link : Link
  arch : Arch
  casc : Casc
  pwr : Pwr
  upd : Upd
  flt : Flt
  deriving DecidableEq, Repr

/-! ### Reset values -/

def HdrCnt.zero : HdrCnt := ⟨0, 0, 0, 0, 0, 0, 0, 0, 0⟩

def Emit.reset : Emit := ⟨0, 0, 0, 0, 0, none, none, false, 0, none⟩

/-- Front end at reset. THR: the reset value of CH[i].THR and SIN[s].THR (log entry 5). -/
def Front.reset : Front :=
  { range := 0, pend := none, upCnt := 0, downCnt := 0, thr := 256, armed := true, shown := 0, blankedBy := [], dcr := 0,
    dcrLim := false, settleAt := 0, sat := false, satAt := 0, satLog := [], satCnt := 0,
    stuckMask := false, maskHeld := false, lastTrig := none }

def ZonePin.reset : ZonePin := ⟨false, 0⟩

/-- Ring position p holds segment p; pool 64-79; redundant 80-83 (R5, R86). -/
def SampCh.reset : SampCh :=
  { ring := [], pool := [64, 65, 66, 67, 68, 69, 70, 71, 72, 73, 74, 75, 76, 77, 78, 79], redun := [80, 81, 82, 83], repl := [],
    retired := [], toRetire := [], poolSize := 16, parkOvf := 0, gateOvf := 0, lateMiss := 0, parkAdj := 0,
    calOvf := 0, filled := false }

def Engine.reset : Engine := ⟨[], none, false, false, 0, 0, 0⟩

def EngCh.reset : EngCh := ⟨0, 0, 0, false, []⟩

/-- SRC resets to 2 INITIAL with sigma GREY_INIT (R141, R145, R156). -/
def Grey.reset : Grey :=
  { n := 0, sx := 0, sxx := 0, sy := 0, syy := 0, lastTag := none, rejects := 0, sigX := 80, sigY := 80, rg := 0,
    src := 2, thr := 0, clamped := false, dcrSum := 0, dcrNum := 0, dPrevSum := 0, dPrevNum := 0,
    shotsGrey := 0, shotsPed := 0, word := 2 ^ 31 }

def Hist.empty : Hist := ⟨[], 0, 0, false, false, 0, 0, none⟩

def Peaks.empty : Peaks := ⟨0, false, []⟩

def Slew.zero : Slew := ⟨0, 0, 0⟩

/-- Factory set at 25.0 C with nominal delay 320 LSB (1.250 ns, R45) until a record or the OTP
defaults load (log entry 7). -/
def TSet.nominal : TSet := ⟨200, 320, 0x4000, 0x4000, 0x4000, 1024⟩

def CalCh.reset : CalCh :=
  { sets := [TSet.nominal], rsel := [0, 0, 0], shape := [], delta := [], pedMeas := [], widthMeas := [], apD := 320,
    apG0 := 0x4000, apG1 := 0x4000, apG2 := 0x4000, apPed := 1024, slD := Slew.zero, slG0 := Slew.zero,
    slG1 := Slew.zero, slG2 := Slew.zero, slP := Slew.zero, slShape := [], slDelta := [], pedWins := [],
    pedSum := [], hits := [], posHits := [], gainN := [], gainA := [], gainB := [], zeroN := 0, zeroC := 0,
    zeroZ := 0, quiet := 0, pedRes := 2, widthRes := 2, gainRes := 2, zeroRes := 2, runPedSegs := [], runWidthSegs := [], ratio := [], runPed := 2, runWidth := 2,
    runGain := 2, runZero := 2, needGain := false, defWait := false, single := none, runStuck := false,
    testR := none, tests := 0, gainHalf := none, held := true,
    stuckLow := false, retireBlk := false }

def CalGrp.reset : CalGrp :=
  { phase := 0, phases := 0, tStart := none, tEnd := none, ending := false, hold := false, cmd := false,
    tempHold := false, noTemp := false, tLast := 0, runs := 0, readRes := 0, rcal := [], armed := false, shots := 0, parkSlot := none, temp := none,
    fresh := false }

def HkEnt.reset : HkEnt := ⟨0, 0, 0, false, false, 0⟩

def Biquad.zero : Biquad := ⟨0, 0, 0, 0⟩

def Blend.zero : Blend := ⟨0, 0, 1⟩

def PinFilt.fresh : PinFilt := ⟨none, 0⟩

/-- An axis after D19 power-up: OFF, P = 0, HOMED 0, Z_REF 0 (R253, R280). -/
def Axis.reset : Axis :=
  { p := 0, zRef := 0, homed := false, encA := PinFilt.fresh, encB := PinFilt.fresh, encZ := PinFilt.fresh, idxFirst := true, ssiLast := none, ssiVel := 0,
    ssiAt := 0, pLatch := 0, mode := .off,
    faultActive := false, axFault := false, moveDone := false, isatV := false, isatP := false, osat := false,
    cause := 0, vel := 0, ferr := 0, encErr := 0, feCnt := 0, fltCnt := 0, pPrev := 0, iP := 0, iV := 0,
    rhoP := Blend.zero, rhoV := Blend.zero, bq1 := Biquad.zero, bq2 := Biquad.zero, w := 0, u := 0, vCmd := 0,
    vCmdSat := 0, uSat := 0, genPos := 0, genV := 0, genA := 0, target := 0, target2 := none, targetV := 0,
    drive := 0, cmp := 0, cmpNext := none, reloadAt := 0, peak := false, cmpWas := 0, held := none, reloads := 0, due := false, pendMode := none, pendMove := none,
    feRun := 0 }

def Lane.reset : Lane :=
  { rxCrc := 0, rxSync := 0, txRpt := 0, txState := 0, rxState := 0, txLeaving := false, lock := false,
    degraded := false, retrain := 0, partner := false, partnerReady := false, partnerAck := false, aligns := 0,
    pre := 0, post := 0 }

def Ring.reset : Ring := ⟨none, 0, [], none, 0⟩

def FltInst.reset : FltInst := ⟨[], false⟩

def FlashTable.none : FlashTable :=
  { sigOk := false, dens := 0, erase4k := false, erase64k := false, page256 := false, addr4 := false, susp := false,
    fastInst := 0, fastMode := 0, fastDummy := 0, quadMethod := 0, progUs := .none, erase4kUs := .none, erase64kUs := .none,
    poll := .wip, resetMethod := 0, resetUs := .none }

def DecRange.none : DecRange := ⟨0, 0, 0, []⟩

def Sys.reset : Sys :=
  { now := 0, cyc := 0, free := 0, devState := .boot, resume := none, resetLow := true, porLow := false,
    cascRole := false, cascId := 0, bootSrc := false, statePend := false, stateTarget := 0, tempHold := false,
    commitId := 0, appliedId := 0, frameNo := 0, devtimeHeld := 0, deferCnt := 0, forcedCnt := 0, badCrc := 0,
    badOpc := 0, formatCnt := 0, irqPend := 0, irqMask := 0, hkIrqLvl := 0, rdy := false, timeSet := none,
    tsAt := 0 }

def Cfg.reset : Cfg :=
  { active := [], slate := [], pend := [], written := [], pendBlocks := [], pendId := none, fixed := [],
    fixedBlocks := [], fixedId := none, held := none, heldNew := [], token := false, waiting := [], crossed := [], epoch := 0, old := [], fmtReset := 0 }

/-- LFSR: the reset value of PPM_SEED until RUN is entered (log entry 4). -/
def Fire.reset : Fire :=
  { lfsr := 1, angA := 0, angB := 0, tf := 0, gap := false, gapAt := 0, closes := false, opens := false, first := false, started := false,
    frame := 0, ending := none, defers := 0,
    anchor := none, shotCnt := 0, reanchor := false, sched := [], lastCross := none, posCell := 0, carry := [], nextSid := 0, shots := [], emits := [],
    subSkip := 0, velInh := false, faultInh := false, dwell := [], dwellSlot := 0, dwellBits := 8,
    dwellEnd := 0, speedAt := 0, speedLast := 0, belowFor := 0, aboveFor := 0, cnt := HdrCnt.zero, hdr := none }

def Zone.reset : Zone := ⟨[], [], []⟩

def Samp.reset : Samp := ⟨[], [], [], 0, none, [], []⟩

def Eng.reset : Eng :=
  { engines := [], startQ := [], chs := [], cands := [], finWait := [], echoes := [], raws := [], mcActive := 0,
    mcSlate := 0, slateReady := false, mcSince := 0, stores := [], reorderFull := 0, fullNext := 0, oldGreys := [], fullSince := none }

def Stk.reset : Stk :=
  { hists := [], sets := [], freeIdle := true, sweep := false, setsHeld := 0, framesSince := 0, live := false, spills := [], bornIn := none, merges := [], peaks := [], openStacks := [], histMiss := 0,
    stkDone := 0, stkMiss := 0, stkDisc := 0, stMismatch := 0, stDrop := 0, spillWait := 0, waitNext := 0 }

def Cal.reset : Cal :=
  { chs := [], grps := [], defaults := false, storeBusy := false, storeErr := false, storedSeq := 0,
    unsaved := [], again := [], lastGrp := none, storing := none, storeData := [], interval := false, lfsr := 1, pulses := [], gated := [], oldChs := [], delays := [] }

/-- UNCAL resets to 1 (R231). -/
def Hk.reset : Hk :=
  { phase := .off, entry := 0, rep := 0, passRun := false, passes := 0, ents := [], prev := none, change := true,
    settle := 0, excLeft := 0, excNew := false, gainWait := false, held := none, stopDue := false, tdac := none, declOn := [], inj := [], injCur := none, curEnt := (0x03f01c00#32, 0x1e000000#32, 0x03e80100#32), curGain := 0,
    declared := false, xtalBack := false, bgStage := 0, resumeAt := none, paused := 0,
    pauseAmber := false, amb := [], pausePin := false, pinLevel := false, notices := [], refInt := false, refExt := false,
    refSup := false, pwmAbsent := false, uncal := true, selfBusy := false, selfWait := false, selfBefore := 0, bgBusy := false,
    bgGain := 0, bgOffVal := 0, bufOvr := false, settleCnt := 0, blankedCnt := 0, abortCnt := 0,
    timerMiss := 0, refFail := 0, blankAbort := 0, outQ := [], buf := [], rd := 0, wr := 0, unread := 0,
    sets := [], tempHk := none, vhk := none, onInt := false, src := [], excSet := 0, boV0 := none, openCnt := 0,
    shortCnt := 0, boOpen := 0, biasHold := [], biasOut := [], biasTgt := [] }

/-- TRSTn is pulled low: the controller is in Test-Logic-Reset (R469). -/
def Tap.reset : Tap := ⟨.logicReset, [], [], []⟩

def Port.reset : Port :=
  { tr := none, ignore := false, csLow := false, telOn := false, tap := Tap.reset, sdo := [], telPos := 0, telPrev := 0xBF000000,
    mode3 := false, lasterr := false, buf := [], replies := [], cmdExtra := 0, cmdShort := 0, cmdBadact := 0,
    cmdNrdy := 0, cmdRefused := 0, cmdBadhdr := 0, cmdTimeout := 0, telShort := 0, telColl := 0, telNrdy := 0,
    telRepeat := 0, tlLenM1 := 0, tl := [], tlNew := false, items := [], sentVer := [], teleVer := [] }

def Flash.reset : Flash :=
  { bytes := [], used := false, table := FlashTable.none, mode := 0, addr4 := false, clk := 0, quad := false, ranges := [], page := none,
    op := none, waitRead := false, timeouts := 0, verify := 0, wprot := 0, progs := 0, erases := 0 }

def Link.reset : Link :=
  { st := .off, rxReady := false, lanes := [], txUse := [], trainTo := 0, retries := 0,
    framesTx := 0, credErr := 0, teleSkip := 0, rxDrop := 0, lfn := 0, sent := [], cum := [],
    ownCum := 0, ownSent := 0, ready := [], turn := 0, out := [], ctl := [], rx := none,
    rxQ := [], fed := [], teleAt := 0, since := 0, laneReq := none }

def Arch.reset : Arch :=
  { mountRes := 0, mounted := false, suspended := false, wearStop := false, budgetHold := false, running := [],
    gen := 0, width := 0, l0sTx := false, l0sRx := false, l0sCap := false, pct := 0, crit := 0, e := 0,
    ckSeq := 0, writeErr := 0, timeouts := 0, dropWave := 0, dropEcho := 0, dropHist := 0, budgetDrop := 0,
    perstLow := true, everMounted := false, mount := none, cmds := [], nextCid := 0, sbSeq := 0, stSlots := 0,
    quotas := [0, 0, 0], dir := [], lba := 0, exts := [], nextSeq := 1, rings := [], staged := [],
    buckets := [], flushing := false, merging := none, inQ := [], timedOut := false,
    mdts := 0, mqes := 0, pairs := 0, recov := ⟨[], 0, [], []⟩ }

def Casc.reset : Casc :=
  { enumOk := false, aligned := false, ringUp := false, breakAt := 0, waitBreak := false, lossFrom := none, present := [],
    ringLoss := 0, syncErr := 0, fwdTo := 0, crcErr := 0, ringSeq := 0, events := [], out := [],
    enumReq := none, tsWait := none, fwd := [], frag := [], updWait := [], updOk := true, badSched := none, fsyncAt := none }

/-- D0 alone is on (R340, R413). The clocks and rails at the pins are external: present (log entry 6). -/
def Pwr.reset : Pwr :=
  { on := [0], coming := [], steps := [], req := none, draining := [], nextAt := 0, drainBy := [], refLost := false, lrefLost := false,
    aprefLost := false, hkxLost := false, vsl := false, vap := false, vhk := false, refPresent := true,
    lrefPresent := true, aprefPresent := true, hkxPresent := true }

def Upd.reset : Upd :=
  { stage := 0, reason := 0, running := 0, counter := 0, count := 0, total := 0, staging := [],
    programmed := 0, erased := 0, download := false, ending := false, bad := false, act := 0,
    actMaster := false, confirmLeft := 0, timer := false, versSup := 0, versEng := 0, versStr := 0,
    versLnk := 0, versNext := none, recovSlot := 0, slot := 0, confirmReq := none, warm := false }

/-- The log budget is full: 256 records (R456; log entry 10). -/
def Flt.reset : Flt :=
  { insts := [], log := [], logPos := 0, logSeq := 0, logDrop := 0, budget := 256, queue := [] }

/-- The block right after reset: RESETn still low, D0 held in reset, every field at its reset value
(R410, R413). -/
def State.reset : State :=
  { pending := [], sys := Sys.reset, cfg := Cfg.reset, fire := Fire.reset, fronts := [], zone := Zone.reset,
    samp := Samp.reset, eng := Eng.reset, greys := [], stk := Stk.reset, cal := Cal.reset, hk := Hk.reset,
    axA := Axis.reset, axB := Axis.reset, port := Port.reset, flash := Flash.reset, link := Link.reset,
    arch := Arch.reset, casc := Casc.reset, pwr := Pwr.reset, upd := Upd.reset, flt := Flt.reset }

end Sys2Proof.Machine
end

