-- ==== Sys2Proof/Machine/Operands.lean ====
section
/-!
DEFINITION. Reading the parameter blocks: which copy is in force where, and one accessor for each field,
under the field's own name (the field maps of R330).
-/

namespace Sys2Proof.Machine

/-- A view of the parameter blocks: the word at an offset of a block. -/
abbrev Rd := Nat → Nat → Word

/-- Word of a copy; words not listed read their reset value. -/
def cget (c : Tab (Tab Word)) (id off : Nat) : Word :=
  if off = 0 then formatWord else tget (resetWord id off) (tget [] c id) off

/-- A copy with one word stored. -/
def cput (c : Tab (Tab Word)) (id off : Nat) (w : Word) : Tab (Tab Word) :=
  tset [] c id (tset (resetWord id off) (tget [] c id) off (storedWord id off w))

/-- The clock domain whose blocks use a parameter block (01, clock domains; 95). -/
def blockDom (id : Nat) : ClkDom :=
  if id = 0x04 ∨ (0x10 ≤ id ∧ id ≤ 0x20) then .smp
  else if id = 0x01 ∨ id = 0x50 ∨ id = 0xB0 ∨ id = 0xC0 then .sup
  else if 0x60 ≤ id ∧ id ≤ 0x63 then .hkd
  else if id = 0x70 ∨ id = 0x71 then .str
  else if id = 0x80 then .lnk
  else if id = 0x90 then .apc
  else if id = 0xA0 then .cxk
  else .core

/-- The blocks as in force in their own domains: under way to a boundary, the fixed set counts where
the token has crossed (R25). -/
def rd (s : State) : Rd := fun id off =>
  if s.cfg.token && s.cfg.fixedBlocks.contains id && s.cfg.crossed.contains (blockDom id) then cget s.cfg.fixed id off
  else cget s.cfg.active id off

/-- The blocks as in force for CORE work begun in epoch `ep` (R25, R113). -/
def rdAt (s : State) (ep : Nat) : Rd :=
  if ep = s.cfg.epoch then rd s else fun id off => cget (tget [] s.cfg.old ep) id off

/-- The blocks as they stand once the pending set has applied (R24, R268). -/
def rdNext (s : State) : Rd := fun id off =>
  if s.cfg.pendBlocks.contains id then cget s.cfg.pend id off
  else if s.cfg.token && s.cfg.fixedBlocks.contains id then cget s.cfg.fixed id off
  else cget s.cfg.active id off

/-! FRAME (R331) -/
def frameMode (r : Rd) : Nat := fld (r 2 1) 31 30
def fsyncEdgeSel (r : Rd) : Bool := bit (r 2 1) 29
def frameShots (r : Rd) : Nat := fld (r 2 1) 23 0
def frameGap (r : Rd) : Nat := fld (r 2 2) 31 16
def deferMax (r : Rd) : Nat := fld (r 2 2) 15 8
def frameLimit (r : Rd) : Nat := fld (r 2 2) 7 0

/-! FIRE (R104) -/
def schedPos (r : Rd) : Bool := bit (r 3 1) 31
def ppmEn (r : Rd) : Bool := bit (r 3 1) 30
def listen (r : Rd) : Nat := fld (r 3 1) 29 16
def ppmMask (r : Rd) : Nat := fld (r 3 1) 15 8
def sinWin (r : Rd) : Nat := fld (r 3 1) 7 0
def ppmSeed (r : Rd) : Nat := fld (r 3 2) 30 0
def posStart (r : Rd) : Nat := fld (r 3 3) 31 8
def posStep (r : Rd) : Nat := fld (r 3 4) 31 8
def emEn (r : Rd) (e : Nat) : Bool := bit (r 3 (6 + 2 * e)) 31
def emSin (r : Rd) (e : Nat) : Nat := fld (r 3 (6 + 2 * e)) 30 28
def emArm (r : Rd) (e : Nat) : Nat := fld (r 3 (6 + 2 * e)) 27 26
def emNsub (r : Rd) (e : Nat) : Nat := fld (r 3 (6 + 2 * e)) 25 24 + 1
def emHop (r : Rd) (e : Nat) : Bool := bit (r 3 (6 + 2 * e)) 23
def emPeriod (r : Rd) (e : Nat) : Nat := fld (r 3 (6 + 2 * e)) 19 0
def emPhase (r : Rd) (e : Nat) : Nat := fld (r 3 (7 + 2 * e)) 31 12
def emFine (r : Rd) (e : Nat) : Nat := fld (r 3 (7 + 2 * e)) 11 9
def emWidth (r : Rd) (e : Nat) : Nat := fld (r 3 (7 + 2 * e)) 8 0
def gap1 (r : Rd) (k : Nat) : Nat := fld (r 3 (38 + k)) 31 16
def gap2 (r : Rd) (k : Nat) : Nat := fld (r 3 (38 + k)) 15 0
def sinPol (r : Rd) (i : Nat) : Bool := bit (r 3 (54 + i)) 31
def sinRange (r : Rd) (i : Nat) : Nat := fld (r 3 (54 + i)) 30 29
def sinThr (r : Rd) (i : Nat) : Nat := fld (r 3 (54 + i)) 28 19
def sinNom (r : Rd) (i : Nat) : Int := sgn 16 (fld (r 3 (54 + i)) 15 0)
/-- Fixed code book entry of an emitter (R105). -/
def emCode (r : Rd) (e : Nat) : Nat := fld (r 3 (186 + e / 8)) (4 * (e % 8) + 3) (4 * (e % 8))
/-- Emitter mask of a channel. -/
def chMask (r : Rd) (c : Nat) : Nat := if c % 2 = 1 then fld (r 3 (58 + c / 2)) 31 16 else fld (r 3 (58 + c / 2)) 15 0
/-- The channels of an emitter's group (R104). -/
def emGroup (r : Rd) (e : Nat) : List Nat := (List.range 256).filter fun c => (chMask r c).testBit e

/-! ZONE (R61) -/
def pinEn (r : Rd) (p : Nat) : Bool := bit (r 4 (1 + p)) 31
def pinPol (r : Rd) (p : Nat) : Bool := bit (r 4 (1 + p)) 30
def pinN (r : Rd) (p : Nat) : Nat := fld (r 4 (1 + p)) 29 26 + 1
def pinM (r : Rd) (p : Nat) : Nat := fld (r 4 (1 + p)) 25 22 + 1
def pinHold (r : Rd) (p : Nat) : Nat := fld (r 4 (1 + p)) 15 0
/-- Near (0) or far (1) gate of a channel: start, end, pin, enable. -/
def gateStart (r : Rd) (c g : Nat) : Nat := fld (r 4 (5 + 2 * c + g)) 31 18
def gateEnd (r : Rd) (c g : Nat) : Nat := fld (r 4 (5 + 2 * c + g)) 17 4
def gatePin (r : Rd) (c g : Nat) : Nat := fld (r 4 (5 + 2 * c + g)) 3 2
def gateEn (r : Rd) (c g : Nat) : Bool := bit (r 4 (5 + 2 * c + g)) 1

/-! DWELL (R106) -/
def dwellEn (r : Rd) : Bool := bit (r 5 1) 31
def dwellSafe (r : Rd) : Bool := bit (r 5 1) 30
def inhibitPin (r : Rd) : Bool := bit (r 5 1) 29
def binBits (r : Rd) : Nat := fld (r 5 1) 28 25
def dwellWindow (r : Rd) : Nat := fld (r 5 1) 15 0
def dwellBudget (r : Rd) : Nat := fld (r 5 2) 31 8
def dwellResume (r : Rd) : Nat := fld (r 5 2) 7 0
def vmin (r : Rd) : Nat := fld (r 5 3) 31 8
def vtime (r : Rd) : Nat := fld (r 5 3) 7 0
def weight (r : Rd) (e : Nat) : Nat := fld (r 5 4) (2 * e + 1) (2 * e)

/-! BANKn (R60) -/
def bankPol (r : Rd) (b : Nat) : Bool := bit (r (0x10 + b) 1) 29
def rangeFixed (r : Rd) (b : Nat) : Bool := bit (r (0x10 + b) 1) 28
def rangeMin (r : Rd) (b : Nat) : Nat := fld (r (0x10 + b) 1) 27 26
def rangeMax (r : Rd) (b : Nat) : Nat := fld (r (0x10 + b) 1) 25 24
def thrCfar (r : Rd) (b : Nat) : Bool := bit (r (0x10 + b) 1) 23
def thrHyst (r : Rd) (b : Nat) : Nat := fld (r (0x10 + b) 1) 22 19
def nearBlank (r : Rd) (b : Nat) : Nat := fld (r (0x10 + b) 1) 18 8
def trigLimit (r : Rd) (b : Nat) : Nat := fld (r (0x10 + b) 1) 7 0
def upLevel (r : Rd) (b : Nat) : Nat := fld (r (0x10 + b) 2) 31 24
def downLevel (r : Rd) (b : Nat) : Nat := fld (r (0x10 + b) 2) 23 16
def upShots (r : Rd) (b : Nat) : Nat := fld (r (0x10 + b) 2) 15 12
def downShots (r : Rd) (b : Nat) : Nat := fld (r (0x10 + b) 2) 7 0
def chThr (r : Rd) (c : Nat) : Nat := fld (r (0x10 + c / 32) (3 + c % 32)) 31 22
def chRange (r : Rd) (c : Nat) : Nat := fld (r (0x10 + c / 32) (3 + c % 32)) 21 20
def chMasked (r : Rd) (c : Nat) : Bool := bit (r (0x10 + c / 32) (3 + c % 32)) 19

/-! SAMPLER (R85) -/
def parkFollowing (r : Rd) : Bool := bit (r 0x20 1) 31
def edgeCells (r : Rd) : Nat := fld (r 0x20 1) 30 27
def indReserve (r : Rd) : Nat := fld (r 0x20 1) 26 24
def rawTrig (r : Rd) : Bool := bit (r 0x20 1) 23
def rawInd (r : Rd) : Bool := bit (r 0x20 1) 22
def rawCal (r : Rd) : Bool := bit (r 0x20 1) 21

/-! ENGINE (R133) and TEMPLATE (R134) -/
def pedEn (r : Rd) : Bool := bit (r 0x30 1) 31
def cellwEn (r : Rd) : Bool := bit (r 0x30 1) 30
def gainEn (r : Rd) : Bool := bit (r 0x30 1) 29
def mfEn (r : Rd) : Bool := bit (r 0x30 1) 28
def codeEn (r : Rd) : Bool := bit (r 0x30 1) 27
def stealEn (r : Rd) : Bool := bit (r 0x30 1) 26
def rawOnShed (r : Rd) : Bool := bit (r 0x30 1) 25
def horizon (r : Rd) : Nat := fld (r 0x30 1) 23 20
def stealBatch (r : Rd) : Nat := fld (r 0x30 1) 19 16
def stealThr (r : Rd) : Nat := fld (r 0x30 1) 15 8
def nearNs (r : Rd) : Nat := fld (r 0x30 2) 31 18
def codeTol (r : Rd) : Nat := fld (r 0x30 2) 17 8
def selByRange (r : Rd) (e : Nat) : Bool := bit (r 0x32 (1 + e)) 31
def selIdx (r : Rd) (e : Nat) : Nat := fld (r 0x32 (1 + e)) 30 29
def selStart (r : Rd) (e : Nat) : Nat := fld (r 0x32 (1 + e)) 28 27
def tplBase (e t : Nat) : Nat := 17 + 18 * (4 * e + t)
def tap (r : Rd) (e t i : Nat) : Int :=
  if i % 2 = 1 then sgn 16 (fld (r 0x32 (tplBase e t + i / 2)) 31 16) else sgn 16 (fld (r 0x32 (tplBase e t + i / 2)) 15 0)
def tplNorm (r : Rd) (e t : Nat) : Nat := fld (r 0x32 (tplBase e t + 16)) 31 16
def tplDelay (r : Rd) (e t : Nat) : Int := sgn 16 (fld (r 0x32 (tplBase e t + 16)) 15 0)
def tplSatDelay (r : Rd) (e t : Nat) : Int := sgn 16 (fld (r 0x32 (tplBase e t + 17)) 31 16)

/-! DECISION (R156) -/
def selectMode (r : Rd) : Nat := fld (r 0x31 1) 31 29
def foreignRpt (r : Rd) : Bool := bit (r 0x31 1) 28
def decorEn (r : Rd) : Bool := bit (r 0x31 1) 27
def decorShots (r : Rd) : Nat := fld (r 0x31 1) 26 25 + 1
def ambEn (r : Rd) : Bool := bit (r 0x31 1) 24
def skipMask (r : Rd) : Nat := fld (r 0x31 1) 23 16
def candK (r : Rd) : Nat := fld (r 0x31 1) 15 8
def greyMin (r : Rd) : Nat := fld (r 0x31 1) 7 0
def greyEvery (r : Rd) : Nat := fld (r 0x31 2) 31 24
def dcr0 (r : Rd) : Nat := fld (r 0x31 2) 23 12
def greyInit (r : Rd) : Nat := fld (r 0x31 2) 11 0
def candFloor (r : Rd) : Nat := fld (r 0x31 3) 31 20
def coincSpan (r : Rd) : Nat := fld (r 0x31 3) 19 17
def coincMin (r : Rd) : Nat := fld (r 0x31 3) 16 13
def coincTol (r : Rd) : Nat := fld (r 0x31 3) 12 0
def diffDw (r : Rd) : Nat := fld (r 0x31 4) 31 22
def isoTof (r : Rd) : Nat := fld (r 0x31 4) 21 0
def isoAmp (r : Rd) : Nat := fld (r 0x31 5) 31 16
def reflAmp (r : Rd) : Nat := fld (r 0x31 5) 15 0
def reflTof (r : Rd) : Nat := fld (r 0x31 6) 31 10
def claimEarliest (r : Rd) : Bool := bit (r 0x31 6) 9
def nearTof (r : Rd) : Nat := fld (r 0x31 7) 31 10
def decorTol (r : Rd) : Nat := fld (r 0x31 7) 9 0
def pulseW (r : Rd) (e : Nat) : Nat := fld (r 0x31 (8 + e)) 31 22
def cfarK (r : Rd) (b : Nat) : Nat := fld (r 0x31 (24 + b)) 31 24

/-! STACK (R174) and PREDICT (R175) -/
def histEn (r : Rd) : Bool := bit (r 0x40 1) 31
def dirBits (r : Rd) : Nat := fld (r 0x40 1) 30 28
def spillTo (r : Rd) : Nat := fld (r 0x40 1) 27 26
def histBanks (r : Rd) : Nat := fld (r 0x40 1) 25 18
def histMask (r : Rd) : Nat := fld (r 0x40 1) 17 10
def integFrames (r : Rd) : Nat := fld (r 0x40 2) 31 16
def stationNo (r : Rd) : Nat := fld (r 0x40 2) 15 0
def stackK (r : Rd) (i : Nat) : Nat := fld (r 0x40 3) (31 - 6 * i) (26 - 6 * i) + 1
def stackKMin (r : Rd) : Nat := fld (r 0x40 3) 7 2 + 1
def alignTol (r : Rd) : Nat := fld (r 0x40 4) 31 22
def binK (r : Rd) (b : Nat) : Nat := fld (r 0x40 (5 + b)) 31 28
def zoomOf (r : Rd) (b : Nat) : Nat := fld (r 0x40 (5 + b)) 21 0
def predEn (r : Rd) : Bool := bit (r 0x41 1) 31
def peakGates (r : Rd) : Nat := fld (r 0x41 1) 30 28
def nbEn (r : Rd) : Bool := bit (r 0x41 1) 27
def minCount (r : Rd) : Nat := fld (r 0x41 2) 31 16
def gateOffset (r : Rd) : Int := sgn 8 (fld (r 0x41 2) 15 8)
def velLim (r : Rd) : Nat := fld (r 0x41 3) 31 22

/-! RCAL (R198) -/
def autoEn (r : Rd) : Bool := bit (r 0x50 1) 31
def ditherEn (r : Rd) : Bool := bit (r 0x50 1) 30
def autoPhases (r : Rd) : Nat := fld (r 0x50 1) 29 26
def deltaT (r : Rd) : Nat := fld (r 0x50 1) 25 19
def zeroSin (r : Rd) : Nat := fld (r 0x50 1) 18 16
def ditherAmp (r : Rd) : Nat := fld (r 0x50 1) 15 8
def pedEvery (r : Rd) : Nat := fld (r 0x50 1) 7 0
def slewFrames (r : Rd) : Nat := fld (r 0x50 2) 31 19
def pedParks (r : Rd) : Nat := fld (r 0x50 2) 18 17
def phaseTimeout (r : Rd) : Nat := fld (r 0x50 2) 15 0
def stepD (r : Rd) : Nat := fld (r 0x50 3) 31 24
def stepP (r : Rd) : Nat := fld (r 0x50 3) 23 16
def stepW (r : Rd) : Nat := fld (r 0x50 3) 15 8
def stepG (r : Rd) : Nat := fld (r 0x50 3) 7 0
def hitsExp (r : Rd) : Nat := fld (r 0x50 4) 31 29
def chiLim (r : Rd) : Nat := fld (r 0x50 4) 28 18
def ditherKhz (r : Rd) : Nat := fld (r 0x50 4) 17 6
def pedWin (r : Rd) : Nat := fld (r 0x50 5) 31 24
def gainPairs (r : Rd) : Nat := fld (r 0x50 5) 23 16
def zeroPulses (r : Rd) : Nat := fld (r 0x50 5) 15 8
def stuckPulses (r : Rd) : Nat := fld (r 0x50 5) 7 0
def pedTol (r : Rd) : Nat := fld (r 0x50 6) 31 22
def widthTol (r : Rd) : Nat := fld (r 0x50 6) 21 14
def gainTol (r : Rd) : Nat := fld (r 0x50 6) 13 6
def calBankEn (r : Rd) (g : Nat) : Bool := if g < 8 then bit (r 0x50 7) (24 + g) else bit (r 0x50 7) 23

/-! HKC (R229), HKSEQ (R230), EXC (R250), BIAS (R251) -/
def seqEn (r : Rd) : Bool := bit (r 0x60 1) 31
def passTrig (r : Rd) : Nat := fld (r 0x60 1) 30 29
def lineSel (r : Rd) : Nat := fld (r 0x60 1) 28 27
def oscInt (r : Rd) : Bool := bit (r 0x60 1) 26
def amberEn (r : Rd) : Bool := bit (r 0x60 1) 25
def blankEn (r : Rd) : Bool := bit (r 0x60 1) 24
def blankPol (r : Rd) : Bool := bit (r 0x60 1) 23
def bgCalEn (r : Rd) : Bool := bit (r 0x60 1) 22
def ambPost (r : Rd) : Nat := fld (r 0x60 1) 21 14
def passPeriod (r : Rd) : Nat := fld (r 0x60 2) 31 8
def pwmAxis (r : Rd) : Nat := fld (r 0x60 3) 31 31
def pwmFalling (r : Rd) : Bool := bit (r 0x60 3) 30
def pwmDelay (r : Rd) : Nat := fld (r 0x60 3) 15 0
def tdacCode (r : Rd) : Nat := fld (r 0x60 4) 31 20
def arUpCnt (r : Rd) : Nat := fld (r 0x60 4) 19 16
def blankMax (r : Rd) : Nat := fld (r 0x60 4) 15 8
def seqLast (r : Rd) : Nat := fld (r 0x61 1) 31 26
def cjMode (r : Rd) : Bool := bit (r 0x62 1) 31
def cjEntry (r : Rd) : Nat := fld (r 0x62 1) 30 25
def boTime (r : Rd) : Nat := fld (r 0x62 1) 24 15
def boMv (r : Rd) : Nat := fld (r 0x62 1) 14 7
def boMask (r : Rd) : Nat := fld (r 0x62 2) 31 8
def extRef (r : Rd) : Nat := fld (r 0x62 3) 31 16
/-- Source `n` of excitation set `k`: MODE, LEVEL, PIN as one field of 9 bits. -/
def excSrc (r : Rd) (k n : Nat) : Nat :=
  fld (r 0x62 (4 + 3 * (k - 1) + n / 2)) (if n % 2 = 0 then 31 else 15) (if n % 2 = 0 then 23 else 7)
def rRef (r : Rd) (k : Nat) : Nat := fld (r 0x62 (6 + 3 * (k - 1))) 31 8
def shortLim (r : Rd) (k : Nat) : Nat := fld (r 0x62 (6 + 3 * (k - 1))) 7 0
def utX (r : Rd) (i : Nat) : Int := sgn 32 (r 0x62 (25 + 2 * i)).toNat
def utY (r : Rd) (i : Nat) : Int := sgn 32 (r 0x62 (26 + 2 * i)).toNat
def biasEn (r : Rd) (o : Nat) : Bool := bit (r 0x63 (1 + 2 * o)) 31
def biasComp (r : Rd) (o : Nat) : Bool := bit (r 0x63 (1 + 2 * o)) 30
def biasSrc (r : Rd) (o : Nat) : Nat := fld (r 0x63 (1 + 2 * o)) 29 24
def biasCode (r : Rd) (o : Nat) : Nat := fld (r 0x63 (1 + 2 * o)) 23 12
def biasSlew (r : Rd) (o : Nat) : Nat := fld (r 0x63 (1 + 2 * o)) 11 4
def biasSlope (r : Rd) (o : Nat) : Int := sgn 16 (fld (r 0x63 (2 + 2 * o)) 31 16)
def biasT0 (r : Rd) (o : Nat) : Int := sgn 12 (fld (r 0x63 (2 + 2 * o)) 15 4)

/-! STEER_A and STEER_B (R279), by axis -/
def stw (r : Rd) (x off : Nat) : Word := r (0x70 + x) off
def encSsi (r : Rd) (x : Nat) : Bool := bit (stw r x 1) 31
def encDir (r : Rd) (x : Nat) : Bool := bit (stw r x 1) 30
def zQual (r : Rd) (x : Nat) : Bool := bit (stw r x 1) 29
def encFilt (r : Rd) (x : Nat) : Nat := fld (stw r x 1) 28 25
def faultAct (r : Rd) (x : Nat) : Nat := fld (stw r x 1) 24 23
def ssiGray (r : Rd) (x : Nat) : Bool := bit (stw r x 1) 22
def ssiBits (r : Rd) (x : Nat) : Nat := fld (stw r x 1) 21 16
def ssiDiv (r : Rd) (x : Nat) : Nat := fld (stw r x 1) 15 8
def pwmPer (r : Rd) (x : Nat) : Nat := fld (stw r x 2) 31 16
def loopN (r : Rd) (x : Nat) : Nat := fld (stw r x 2) 15 10
def blendLen (r : Rd) (x : Nat) : Nat := fld (stw r x 2) 9 0 + 1
def cpr (r : Rd) (x : Nat) : Nat := (stw r x 3).toNat
def zeroPos (r : Rd) (x : Nat) : Int := sgn 32 (stw r x 4).toNat
def indexTol (r : Rd) (x : Nat) : Nat := fld (stw r x 5) 31 16
def feVlim (r : Rd) (x : Nat) : Nat := fld (stw r x 5) 15 0
def feLimit (r : Rd) (x : Nat) : Nat := fld (stw r x 6) 31 8
def feTime (r : Rd) (x : Nat) : Nat := fld (stw r x 7) 31 16
def outLim (r : Rd) (x : Nat) : Int := ((stw r x 8).toNat : Int)
def vcmdLim (r : Rd) (x : Nat) : Int := ((stw r x 9).toNat : Int)
def ilimP (r : Rd) (x : Nat) : Int := ((stw r x 10).toNat : Int)
def ilimV (r : Rd) (x : Nat) : Int := ((stw r x 11).toNat : Int)
def vMax (r : Rd) (x : Nat) : Int := ((stw r x 12).toNat : Int)
def aMax (r : Rd) (x : Nat) : Int := ((stw r x 13).toNat : Int)
def jMax (r : Rd) (x : Nat) : Int := ((stw r x 14).toNat : Int)
def coef (r : Rd) (x i : Nat) : Int := sgn 32 (stw r x (15 + i)).toNat
def coefShift (r : Rd) (x i : Nat) : Nat := fld (stw r x (32 + i / 4)) (8 * (i % 4) + 4) (8 * (i % 4))

/-! LINK (R364), ARCHIVE (R390), CASCADE (R405), POWER (R421), FAULT (R460), DEVICE (R332) -/
def linkEn (r : Rd) : Bool := bit (r 0x80 1) 31
def linkRate (r : Rd) : Nat := fld (r 0x80 1) 30 30
def txLanes (r : Rd) : Nat := 2 ^ fld (r 0x80 1) 29 28
def rxLanes (r : Rd) : Nat := 2 ^ fld (r 0x80 1) 27 26
def restripeEn (r : Rd) : Bool := bit (r 0x80 1) 25
def lkEchoEn (r : Rd) : Bool := bit (r 0x80 1) 24
def lkWaveEn (r : Rd) : Bool := bit (r 0x80 1) 23
def lkHistEn (r : Rd) : Bool := bit (r 0x80 1) 22
def teleUs (r : Rd) : Nat := fld (r 0x80 1) 15 0
def flushNs (r : Rd) : Nat := fld (r 0x80 2) 31 16
def arWaveEn (r : Rd) : Bool := bit (r 0x90 1) 31
def arEchoEn (r : Rd) : Bool := bit (r 0x90 1) 30
def arHistEn (r : Rd) : Bool := bit (r 0x90 1) 29
def maxGen (r : Rd) : Nat := fld (r 0x90 1) 28 26
def maxWidth (r : Rd) : Nat := fld (r 0x90 1) 25 24
def wearLimit (r : Rd) : Nat := fld (r 0x90 1) 23 16
def sealS (r : Rd) : Nat := fld (r 0x90 1) 15 8
def cfgStSlots (r : Rd) : Nat := fld (r 0x90 1) 7 0
def wearBudget (r : Rd) : Nat := (r 0x90 2).toNat
def quotaOf (r : Rd) (i : Nat) : Nat := fld (r 0x90 3) (31 - 8 * i) (24 - 8 * i)
def ioTo (r : Rd) : Nat := fld (r 0x90 4) 31 16
def adminTo (r : Rd) : Nat := fld (r 0x90 4) 15 0
def faultShare (r : Rd) : Bool := bit (r 0xA0 1) 31
def leadNs (r : Rd) : Nat := fld (r 0xA0 1) 29 16
def stagger (r : Rd) : Nat := fld (r 0xB0 1) 31 24
def faultN (r : Rd) (s : Nat) : Nat := fld (r 0xC0 s) 31 16
def faultUnit (r : Rd) (s : Nat) : Nat := fld (r 0xC0 s) 15 14
def faultW (r : Rd) (s : Nat) : Nat := fld (r 0xC0 s) 13 0
def userTag (r : Rd) : Word := r 0x01 1

end Sys2Proof.Machine
end

