-- ==== Sys2Proof/Machine/Ops.lean ====
section
/-!
DEFINITION. The operations that every family shares: the outcome of a meaning, time, power domains,
interrupt sources, replies, the event log, raising fault events, and access to the keyed parts of the
state.
-/

namespace Sys2Proof.Machine

/-- What a meaning answers. -/
abbrev Out := Host.Outcome State Fault Refusal

/-- The fault for a command that names an object beyond R4, else the state given. -/
def guardObj (ok : Bool) (s : State) : Out := if ok then .next s else .fault .noSuchObject

/-! ### Free values -/

/-- Take a free value of `n` bits: the next one of the opaque sequence (log entry 2). -/
def takeFree (n : Nat) (s : State) : Nat × State :=
  (Config.freeValue s.sys.free % 2 ^ n, { s with sys := { s.sys with free := s.sys.free + 1 } })

/-! ### Power domains and time -/

/-- Domain `d` is switched on (R21). -/
def domOn (s : State) (d : Nat) : Bool := s.pwr.on.contains d

/-- Domain `d` is on and up (R419). -/
def domUp (s : State) (d : Nat) : Bool := s.pwr.on.contains d && !s.pwr.coming.contains d

/-- The bank domain of a channel, and D9 for a start input (01, power domains). -/
def inputDom (c : Nat) : Nat := if c < 256 then 1 + c / 32 else 9

/-- The engine quarter of an engine (R108). -/
def quarterOf (k : Nat) : Nat := k / 16

/-- DEVTIME runs: D9 up and its reference present (R95, R416). -/
def devRuns (s : State) : Bool := domUp s 9 && !s.pwr.refLost

/-- The present count in ns, without the wrap: what times of the state are compared with. -/
def devNs (s : State) : Nat := s.sys.cyc / 5

/-- DEVTIME in ns (R95). -/
def devtime (s : State) : Nat := devNs s % 2 ^ 64

/-- Time passes up to SMP cycle `t` of the present count; an earlier `t` moves nothing. -/
def advTo (t : Nat) (s : State) : State :=
  { s with sys := { s.sys with now := s.sys.now + (t - s.sys.cyc), cyc := max t s.sys.cyc } }

/-- `n` cycles of 0.2 ns pass. -/
def advBy (n : Nat) (s : State) : State :=
  { s with sys := { s.sys with now := s.sys.now + n, cyc := if devRuns s then s.sys.cyc + n else s.sys.cyc } }

/-- Time passes up to the instant `n` of `now`; an earlier one moves nothing. -/
def advNow (n : Nat) (s : State) : State := advBy (n - s.sys.now) s

/-- One nanosecond with no command: what a step on an empty queue does (log entry 9). -/
def tick (s : State) : State := advBy 5 s

/-! ### Interrupt sources (R338) -/

/-- Set source `k`. -/
def irq (k : Nat) (s : State) : State := { s with sys := { s.sys with irqPend := s.sys.irqPend ||| 2 ^ k } }

/-! ### Device state -/

def stateCode (d : DevState) : Nat :=
  match d with
  | .boot => 0 | .idle => 1 | .armed => 2 | .run => 3 | .hold => 4 | .safe => 5 | .recovery => 6

/-- Change the device state; every change sets source STATE (R337). -/
def setDev (d : DevState) (s : State) : State :=
  if s.sys.devState = d then s else irq 2 { s with sys := { s.sys with devState := d } }

/-- The state the hardware is in: what RECOVERY and a warm BOOT resume while the supervisor reports
them (R483), else the reported state. -/
def opState (s : State) : DevState :=
  match s.sys.devState with
  | .recovery | .boot => s.sys.resume.getD s.sys.devState
  | d => d

/-- Move the operating state: the reported one, or under RECOVERY and BOOT the one to be resumed. -/
def setOp (d : DevState) (s : State) : State :=
  match s.sys.devState, s.sys.resume with
  | .recovery, some _ => { s with sys := { s.sys with resume := some d } }
  | .boot, some _ => { s with sys := { s.sys with resume := some d } }
  | _, _ => setDev d s

/-- Frames run: the operating state is RUN and a first gap has opened. -/
def running (s : State) : Bool := opState s == .run && s.fire.started

/-- The device index (R4, R392). -/
def devIdx (s : State) : Nat := s.sys.cascId

/-- Roles of R392. -/
def isMaster (s : State) : Bool := s.sys.cascRole && s.sys.cascId == 0
def isSlave (s : State) : Bool := s.sys.cascRole && s.sys.cascId != 0

/-- A master with an enumerated cascade (R316, R398). -/
def cascMaster (s : State) : Bool := isMaster s && s.casc.enumOk

/-- This device owns its own frames: standalone, or no enumerated cascade above it (R398). -/
def ownsFrames (s : State) : Bool := !(isSlave s && s.casc.enumOk)

/-! ### Parts of the state held by key -/

def front (s : State) (c : Nat) : Front := tget Front.reset s.fronts c
def modFront (c : Nat) (f : Front → Front) (s : State) : State := { s with fronts := tmod Front.reset s.fronts c f }

def emit (s : State) (e : Nat) : Emit := tget Emit.reset s.fire.emits e
def modEmit (e : Nat) (f : Emit → Emit) (s : State) : State :=
  { s with fire := { s.fire with emits := tmod Emit.reset s.fire.emits e f } }

def sampCh (s : State) (c : Nat) : SampCh := tget SampCh.reset s.samp.chs c
def modSampCh (c : Nat) (f : SampCh → SampCh) (s : State) : State :=
  { s with samp := { s.samp with chs := tmod SampCh.reset s.samp.chs c f } }

def engine (s : State) (k : Nat) : Engine := tget Engine.reset s.eng.engines k
def modEngine (k : Nat) (f : Engine → Engine) (s : State) : State :=
  { s with eng := { s.eng with engines := tmod Engine.reset s.eng.engines k f } }

def engCh (s : State) (c : Nat) : EngCh := tget EngCh.reset s.eng.chs c
def modEngCh (c : Nat) (f : EngCh → EngCh) (s : State) : State :=
  { s with eng := { s.eng with chs := tmod EngCh.reset s.eng.chs c f } }

def grey (s : State) (c : Nat) : Grey := tget Grey.reset s.greys c
def modGrey (c : Nat) (f : Grey → Grey) (s : State) : State := { s with greys := tmod Grey.reset s.greys c f }

def calCh (s : State) (c : Nat) : CalCh := tget CalCh.reset s.cal.chs c
def modCalCh (c : Nat) (f : CalCh → CalCh) (s : State) : State :=
  { s with cal := { s.cal with chs := tmod CalCh.reset s.cal.chs c f } }

def calGrp (s : State) (g : Nat) : CalGrp := tget CalGrp.reset s.cal.grps g
def modCalGrp (g : Nat) (f : CalGrp → CalGrp) (s : State) : State :=
  { s with cal := { s.cal with grps := tmod CalGrp.reset s.cal.grps g f } }

def axis (s : State) (x : Nat) : Axis := if x = 0 then s.axA else s.axB
def modAxis (x : Nat) (f : Axis → Axis) (s : State) : State :=
  if x = 0 then { s with axA := f s.axA } else { s with axB := f s.axB }

def lane (s : State) (k : Nat) : Lane := tget Lane.reset s.link.lanes k
def modLane (k : Nat) (f : Lane → Lane) (s : State) : State :=
  { s with link := { s.link with lanes := tmod Lane.reset s.link.lanes k f } }

/-- The shot of a running number. -/
def shotOf (s : State) (sid : Nat) : Option Shot := s.fire.shots.find? fun x => x.sid == sid

/-- Change the shot of a running number. -/
def modShot (sid : Nat) (f : Shot → Shot) (s : State) : State :=
  { s with fire := { s.fire with shots := s.fire.shots.map fun x => if x.sid = sid then f x else x } }

/-- Change every shot in flight. -/
def modShots (f : Shot → Shot) (s : State) : State := { s with fire := { s.fire with shots := s.fire.shots.map f } }

def modHdr (f : HdrCnt → HdrCnt) (s : State) : State := { s with fire := { s.fire with cnt := f s.fire.cnt } }

/-- A telemetry item's producer writes a new value to the mirror (R295, R298). -/
def putItem (tag : Nat) (v : Int) (s : State) : State :=
  { s with port := { s.port with items := tmod (0, 0) s.port.items tag (fun p => (p.1 + 1, usgn 24 v)) } }

/-- The channels of group `g`: a bank's 32, or the four start inputs as 256-259 (R179). -/
def groupChans (g : Nat) : List Nat := if g < 8 then upto (32 * g) 32 else upto 256 4

/-- The group, bank or converter of an input. -/
def groupOf (c : Nat) : Nat := if c < 256 then c / 32 else 8

/-! ### Replies (R312, R315) -/

/-- The OPC of a reply, its status and payload. An OK reply under NOREPLY is suppressed, where the reply would leave
for the host: a slave's reply on the ring is for its master (log entry 60). -/
def replyTo (opc : Nat) (q : Req) (st : Nat) (pay : List Word) (s : State) : State :=
  if st = 0 ∧ q.flags.toNat % 2 = 1 ∧ q.org ≠ .ring then s
  else { s with port := { s.port with replies := s.port.replies ++
    [⟨q.org, BitVec.ofNat 8 opc, q.seq, BitVec.ofNat 8 st, BitVec.ofNat 8 (devIdx s), pay⟩] } }

/-! ### Event log (R455, R456) -/

/-- Records the ring holds, and records of a sector. -/
def logCap : Nat := 16384
def logSector : Nat := 128

/-- Write a record, erasing a sector first where the record is the first of one. A device without a usable flash keeps
no log (R301, R458). -/
def logPut (src kind inst detail : Nat) (s : State) : State :=
  if ¬ s.flash.used then s else
  let first := s.flt.logPos % logSector = 0
  let kept := if first then s.flt.log.take (logCap - logSector) else s.flt.log
  let seq := match s.flt.log with | [] => 0 | r :: _ => (r.seq + 1) % 2 ^ 32
  let r : LogRec := ⟨seq, if domOn s 9 then devtime s else 0, src, kind, inst, detail, s.sys.frameNo,
    s.sys.now / 5000000000⟩
  irq 3 { s with
    flt := { s.flt with log := r :: kept, logPos := (s.flt.logPos + 1) % logCap, logSeq := seq }
    flash := { s.flash with progs := wrapAdd 32 s.flash.progs 1, erases := wrapAdd 32 s.flash.erases (if first then 1 else 0) } }

/-- A record under the budget: KIND 0 and 4 need a token, the others take one when one is free. -/
def logWrite (src kind inst detail : Nat) (s : State) : State :=
  if s.flt.budget = 0 then
    if kind = 0 ∨ kind = 4 then { s with flt := { s.flt with logDrop := satAdd 16 s.flt.logDrop 1 } }
    else logPut src kind inst detail s
  else logPut src kind inst detail { s with flt := { s.flt with budget := s.flt.budget - 1 } }

/-- A record whose DETAIL the spec does not state: a free value (R455). -/
def logNote (src kind inst : Nat) (s : State) : State := let f := takeFree 32 s; logWrite src kind inst f.1 f.2

/-- A fault event reaches SUP and waits there to be classified (R451). -/
def raiseEvent (src inst detail : Nat) (s : State) : State :=
  { s with flt := { s.flt with queue := s.flt.queue ++ [(src, inst, detail)] } }

/-- An event whose DETAIL the spec does not state. -/
def raiseOpen (src inst : Nat) (s : State) : State := let f := takeFree 32 s; raiseEvent src inst f.1 f.2

/-- An instance's counts. -/
def fltInst (s : State) (src inst : Nat) : FltInst := tget FltInst.reset s.flt.insts (65536 * src + inst)

def modFlt (src inst : Nat) (f : FltInst → FltInst) (s : State) : State :=
  { s with flt := { s.flt with insts := tmod FltInst.reset s.flt.insts (65536 * src + inst) f } }

def isLasting (s : State) (src inst : Nat) : Bool := (fltInst s src inst).lasting

/-- Apply `f` for each number of a list, in order. -/
def each {α : Type} (l : List α) (f : α → State → State) (s : State) : State := l.foldl (fun s x => f x s) s

end Sys2Proof.Machine
end

