-- ==== Sys2Proof/Machine/Flash.lean ====
section
/-!
DEFINITION. The flash behind its port (R300-R308): its bytes, program and erase operations and what happens
at their end, the calibration store's frames (R194-R196) and the order in which the flash's users go on.
-/

namespace Sys2Proof.Machine

/-! ### Bytes (R303, R305) -/

/-- Byte of the flash; an erased byte is 0xFF (log entry 6). -/
def flashByte (m : Tab Byte) (a : Nat) : Byte := tget 0xFF#8 m a

/-- Bytes from an offset on. -/
def flashRead (m : Tab Byte) (a n : Nat) : List Byte := (List.range n).map fun i => flashByte m (a + i)

/-- Number in `n` bytes from an offset on. -/
def flashNum (m : Tab Byte) (a n : Nat) : Nat := ofLe (flashRead m a n)

/-- Programming changes bits from 1 to 0 only. -/
def flashProg : Nat → List Byte → Tab Byte → Tab Byte
  | _, [], m => m
  | a, b :: r, m => flashProg (a + 1) r (tset 0xFF#8 m a (flashByte m a &&& b))

/-- Every byte of a range reads 0xFF. -/
def flashErase (a n : Nat) (m : Tab Byte) : Tab Byte := m.filter fun p => decide (p.1 < a) || decide (a + n ≤ p.1)

/-- Bytes of a range that nothing fixes: free values. -/
def flashScatter : Nat → Nat → State → State
  | 0, _, s => s
  | n + 1, a, s =>
    let f := takeFree 8 s
    flashScatter n (a + 1) { f.2 with flash := { f.2.flash with bytes := tset 0xFF#8 f.2.flash.bytes a (BitVec.ofNat 8 f.1) } }

/-- First offset without a byte: the density, at most 64 MiB (R303). -/
def flashTop (s : State) : Nat := if s.flash.used then 2 ^ min s.flash.table.dens 26 else 0

/-- The part of a run of bytes that the flash has. -/
def flashFit (s : State) (a : Nat) (b : List Byte) : List Byte := b.take (flashTop s - a)

/-- Offsets of the boot header and the slots, where window writes and the erase register are refused (R303, R307). -/
def flashProtected (a : Nat) : Bool := decide (a < 0x1100000)

/-! ### Slots and their decryption (R304, R423, R424) -/

def slotOff (slot : Nat) : Nat := if slot = 0 then 0x100000 else 0x900000

/-- A field of a slot's manifest. -/
def manNum (s : State) (slot a n : Nat) : Nat := flashNum s.flash.bytes (slotOff slot + a) n

def manParts (s : State) (slot : Nat) : Nat := manNum s slot 17 1

/-- Descriptors of a part type for this device. -/
def partsOf (s : State) (slot typ : Nat) : List Nat :=
  (List.range (manParts s slot)).filter fun p => manNum s slot (64 + 64 * p) 1 == typ && manNum s slot (65 + 64 * p) 1 == devIdx s

/-- A part's version, as IDENT reports it; 0 for a part that is absent. -/
def partVersion (s : State) (slot typ : Nat) : Nat := match partsOf s slot typ with | p :: _ => manNum s slot (72 + 64 * p) 4 | [] => 0

/-- The range a part's descriptor describes. -/
def partRange (s : State) (slot typ : Nat) : DecRange :=
  match partsOf s slot typ with
  | p :: _ => ⟨slotOff slot + manNum s slot (76 + 64 * p) 4, manNum s slot (80 + 64 * p) 4, manNum s slot (70 + 64 * p) 1,
      (flashRead s.flash.bytes (slotOff slot + 84 + 64 * p) 12).map fun b => b.toNat⟩
  | [] => DecRange.none

/-- The supervisor has read a slot's manifest: its four ranges are loaded (R304). -/
def loadRanges (slot : Nat) (s : State) : State :=
  let t := (List.range 4).foldl (fun t typ => tset DecRange.none t (4 * slot + typ) (partRange s slot typ)) s.flash.ranges
  { s with flash := { s.flash with ranges := t } }

/-- An image key's 32 bytes. -/
def keyBytes (k : Nat) : List Nat := (List.range 32).map fun i => Config.imageKey k i % 256

/-- Key-stream byte of a range at offset `d` from its start. -/
def streamByte (x : DecRange) (d : Nat) : Nat := (ctrBlock (keyBytes x.key) x.iv (d / 16)).getD (d % 16) 0

/-- A byte as the direct window reads it: decrypted inside a loaded range of a slot, else as stored (R303, R304). -/
def windowByte (s : State) (a : Nat) : Byte :=
  let b := flashByte s.flash.bytes a
  if flashTop s ≤ a then 0xFF#8
  else match s.flash.ranges.find? fun p => decide (p.2.start ≤ a) && decide (a < p.2.start + p.2.length) with
    | some p => if 0x100000 ≤ a ∧ a < 0x1100000 then b ^^^ BitVec.ofNat 8 (streamByte p.2 (a - p.2.start)) else b
    | none => b

/-- A part of a slot's image as the supervisor reads it, at most `n` bytes. -/
def partBytes (s : State) (slot typ n : Nat) : List Byte :=
  let x := partRange s slot typ
  (List.range (min n x.length)).map fun i => windowByte s (x.start + i)

/-- The discovery table's tests (R301). -/
def flashAccepted (t : FlashTable) : Bool :=
  t.sigOk && decide (25 ≤ t.dens) && t.erase4k && t.page256 && (decide (t.dens ≤ 24) || t.addr4)

/-! ### Operations (R305-R307) -/

def startOp (o : FlashOp) (s : State) : State := { s with flash := { s.flash with op := some o } }

/-- A page program of a run of bytes. -/
def startProg (a : Nat) (b : List Byte) (user : Nat) (s : State) : State := startOp ⟨a, flashFit s a b, 0, user, s.sys.now⟩ s

/-- An erase of a length. -/
def startErase (a n user : Nat) (s : State) : State := startOp ⟨a, [], n, user, s.sys.now⟩ s

/-- Timeout of an operation in 0.2 ns: the declared maximum, or its default, plus a quarter; of a 64 KiB erase by 4 KiB steps
that of one step (R306, R307). -/
def opLimit (t : FlashTable) (o : FlashOp) : Nat :=
  6250 * (if o.erase = 0 then t.progUs.getD 5000
    else if o.erase = 0x10000 ∧ t.erase64k then t.erase64kUs.getD 3000000 else t.erase4kUs.getD 400000)

/-- Log records of erased sectors are gone (R303, R455). -/
def logErase (a n : Nat) (s : State) : State :=
  let pos := fun (i : Nat) => 0x1180000 + 32 * ((s.flt.logPos + 2 * logCap - 1 - i) % logCap)
  let kept := ((List.range s.flt.log.length).zip s.flt.log).filter fun p => !(decide (a ≤ pos p.1) && decide (pos p.1 < a + n))
  { s with flt := { s.flt with log := kept.map fun p => p.2 } }

/-- An operation has ended: what it leaves in the flash. -/
def opBytes (o : FlashOp) (good : Bool) (s : State) : State :=
  if o.erase = 0 then
    if good then { s with flash := { s.flash with bytes := flashProg o.off o.data s.flash.bytes } } else flashScatter o.data.length o.off s
  else
    let s1 := logErase o.off o.erase { s with flash := { s.flash with bytes := flashErase o.off o.erase s.flash.bytes } }
    if good then s1 else flashScatter (min o.erase (flashTop s - o.off)) o.off s1

/-- A program that verifies: read back, every byte is the byte programmed (R306). -/
def opVerifies (o : FlashOp) (s : State) : Bool :=
  o.erase != 0 || decide (flashRead (flashProg o.off o.data s.flash.bytes) o.off o.data.length = o.data)

/-! ### The calibration store (R194-R196, R459) -/

/-- Offset of frame `k`: 0-3 bank A, 4-7 bank B. -/
def frameOff (k : Nat) : Nat := 0x1100000 + 0x10000 * k

/-- A valid frame's FORMAT major and SEQ (R196). -/
def frameRec (m : Tab Byte) (k : Nat) : Option (Nat × Nat) :=
  let a := frameOff k
  if flashNum m (a + 60) 4 = 0xA55AC3E1 ∧ flashNum m (a + 12) 4 = 41600 ∧ flashNum m (a + 16) 4 = crc32c (flashRead m (a + 64) 41600) then
    some (flashNum m (a + 6) 2, flashNum m (a + 8) 4)
  else none

/-- The frame with the highest SEQ among those that satisfy `p`. -/
def newestFrame (m : Tab Byte) (p : Nat → Bool) : Option (Nat × Nat) :=
  (List.range 8).foldl (fun best k =>
    match frameRec m k with
    | some (major, seq) =>
      if p major && (match best with | some b => decide (b.2 < seq) | none => true) then some (k, seq) else best
    | none => best) none

/-- The firmware's newest valid record: its frame and SEQ. -/
def newestOwn (m : Tab Byte) : Option (Nat × Nat) := newestFrame m (· == 1)

/-- A frame of the bank that does not hold the newest own record, other than `no`: an empty or invalid one, else the
lowest SEQ of the own major (R195). -/
def pickFrame (m : Tab Byte) (no : Option Nat) : Option Nat :=
  let bank := match newestOwn m with | some p => if p.1 < 4 then 4 else 0 | none => 0
  let ks := (upto bank 4).filter fun k => some k != no
  match ks.find? fun k => (frameRec m k).isNone with
  | some k => some k
  | none => (sortBy (fun (k : Nat) => (((frameRec m k).getD (0, 0)).2 : Int)) (ks.filter fun k => ((frameRec m k).getD (0, 0)).1 == 1)).head?

def leInt (n : Nat) (v : Int) : List Byte := leBytes n (usgn (8 * n) v)

/-- Bytes of a set. -/
def setBytes (v : TSet) : List Byte := leInt 2 v.t ++ leInt 2 v.d ++ leBytes 2 v.g0 ++ leBytes 2 v.g1 ++ leBytes 2 v.g2 ++ leBytes 2 v.ped ++ leBytes 4 0

/-- Bytes padded with zeros to a length. -/
def padTo (n : Nat) (b : List Byte) : List Byte := b ++ List.replicate (n - b.length) 0

/-- A channel's entry. -/
def entryBytes (s : State) (c : Nat) : List Byte :=
  let x := calCh s c
  let gone := (sampCh s c).retired
  padTo 160 (leBytes 2 c ++ leBytes 1 x.sets.length ++ leBytes 1 (b2n x.stuckLow + 2 * b2n x.retireBlk)
    ++ leBytes 2 (x.rsel.getD 0 0 + 16 * x.rsel.getD 1 0 + 256 * x.rsel.getD 2 0) ++ leBytes 2 0 ++ leBytes 11 (maskOf gone)
    ++ (List.range 4).map (fun i => BitVec.ofNat 8 (tget 0x7F (sampCh s c).repl (80 + i))) ++ leBytes 9 0 ++ (x.sets.take 8).flatMap setBytes)

/-- The record of the results in force. -/
def recordBytes (seq groups : Nat) (s : State) : List Byte :=
  let body := (List.range 260).flatMap (entryBytes s)
  padTo 60 (leBytes 4 0x5C0FA11B ++ leBytes 4 0x00010000 ++ leBytes 4 seq ++ leBytes 4 41600 ++ leBytes 4 (crc32c body) ++ leBytes 2 groups)
    ++ leBytes 4 0xA55AC3E1 ++ body

/-- Groups whose results the newest own record holds. -/
def storedGroups (m : Tab Byte) : Nat := match newestOwn m with | some p => flashNum m (frameOff p.1 + 20) 2 | none => 0

/-- A store begins: the record is formed, and its frame is erased. -/
def storeBegin (s : State) : State :=
  if s.cal.unsaved = [] ∨ s.cal.storing.isSome ∨ ¬ s.flash.used then s
  else match pickFrame s.flash.bytes none with
    | none => { s with cal := { s.cal with storeErr := true } }
    | some k =>
      let seq := wrapAdd 32 ((newestFrame s.flash.bytes fun _ => true).getD (0, 0)).2 1
      { s with cal := { s.cal with storing := some (k, 0, false), storeBusy := true, interval := true, unsaved := [],
                                   storeData := recordBytes seq (storedGroups s.flash.bytes ||| maskOf s.cal.unsaved) s } }

/-- The runs of bytes of a record in the order they are written: body, header, COMMIT (R195); each within a page. -/
def storeRun (n : Nat) : Option (Nat × Nat) :=
  if n = 1 then some (64, 192)
  else if n ≤ 162 then some (256 * (n - 1), 256)
  else if n = 163 then some (256 * 162, 192)
  else if n = 164 then some (0, 60)
  else if n = 165 then some (60, 4)
  else none

/-- A failed erase or program of the store: STORE_ERR, and one retry in another eligible frame. -/
def storeFail (s : State) : State :=
  match s.cal.storing with
  | some (k, _, retried) =>
    let s1 := { s with cal := { s.cal with storeErr := true }, flash := { s.flash with page := none } }
    let give := { s1 with cal := { s1.cal with storing := none, storeBusy := false, storeData := [],
                                               unsaved := bitsSet 9 0 (maskOf s.cal.unsaved ||| ofLe ((s.cal.storeData.drop 20).take 2)) } }
    if retried then give
    else match pickFrame s.flash.bytes (some k) with
      | some j => { s1 with cal := { s1.cal with storing := some (j, 0, true) } }
      | none => give
  | none => s

/-- A write of the store is done; after COMMIT the record is the newest. -/
def storeDone (s : State) : State :=
  match s.cal.storing with
  | some (k, n, retried) =>
    if n < 165 then { s with cal := { s.cal with storing := some (k, n + 1, retried) } }
    else { s with cal := { s.cal with storing := none, storeBusy := false, defaults := false, storeData := [],
                                      storedSeq := ofLe ((s.cal.storeData.drop 8).take 4) } }
  | none => s

/-- A record is due: written now unless the interval of R459 runs. -/
def storeRequest (s : State) : State := if s.cal.interval then s else storeBegin s

/-! ### Users of the port -/

/-- The download's next work: a full page of staged bytes, or the rest at the end, where the slot is erased so far; else
the next erase ahead of the data (R430-R432). -/
def updNext (s : State) : State :=
  let u := s.upd
  let base := slotOff u.slot
  if ¬ u.download then s
  else if (256 ≤ u.staging.length ∨ (u.ending ∧ u.staging ≠ [])) ∧ u.programmed + min 256 u.staging.length ≤ u.erased then
    startProg (base + u.programmed) (u.staging.take 256) 2 s
  else if u.erased < 0x800000 then startErase (base + u.erased) 0x10000 3 s
  else s

/-- The port is free: the store goes on, then the download. -/
def flashNext (s : State) : State :=
  if ¬ s.flash.used ∨ s.flash.op.isSome ∨ s.flash.page.isSome then s
  else match s.cal.storing with
    | some (k, n, _) =>
      if n = 0 then startErase (frameOff k) 0x10000 1 s
      else match storeRun n with
        | some (a, len) => { s with flash := { s.flash with page := some (frameOff k + a, (s.cal.storeData.drop a).take len) } }
        | none => s
    | none => updNext s

/-- An operation's outcome reaches its user. -/
def opReport (o : FlashOp) (good : Bool) (s : State) : State :=
  if o.user = 1 then (if good then storeDone s else storeFail s)
  else if o.user = 2 then
    { s with upd := { s.upd with bad := s.upd.bad || !good, programmed := s.upd.programmed + o.data.length, staging := s.upd.staging.drop o.data.length } }
  else if o.user = 3 then { s with upd := { s.upd with bad := s.upd.bad || !good, erased := s.upd.erased + o.erase } }
  else s

/-- Counters of an operation's end: completed, with or without a good read-back, or timed out (R306, R309). An erase of
64 KiB is 16 erases where the flash declares none of that size (R307). -/
def opCount (o : FlashOp) (completed ok : Bool) (s : State) : State :=
  let n := if o.erase = 0x10000 ∧ ¬ s.flash.table.erase64k then 16 else 1
  { s with flash := { s.flash with
    progs := if completed ∧ o.erase = 0 then wrapAdd 32 s.flash.progs 1 else s.flash.progs
    erases := if completed ∧ o.erase ≠ 0 then wrapAdd 32 s.flash.erases n else s.flash.erases
    verify := if completed ∧ ¬ ok then satAdd 8 s.flash.verify 1 else s.flash.verify
    timeouts := if completed then s.flash.timeouts else satAdd 8 s.flash.timeouts 1 } }

/-- The operation in progress ends: completed, with its check good or not, or timed out (R306). -/
def opEnd (completed good : Bool) (s : State) : State :=
  match s.flash.op with
  | some o =>
    let ok := completed && good && opVerifies o s
    let s1 := opBytes o ok { s with flash := { s.flash with op := none, waitRead := false } }
    flashNext (opReport o ok (opCount o completed ok s1))
  | none => s

end Sys2Proof.Machine
end

