-- ==== Sys2Proof/Machine/Steer.lean ====
section
/-!
DEFINITION. The steering engine (D19): encoders, angle, PWM reload, the control law, the profile
generator, hand-over between modes, faults of an axis and their actions (R253-R280).
-/

namespace Sys2Proof.Machine

/-! ### Fixed-point arithmetic (R265) -/

def sat32 (v : Int) : Int := clampI (-(2 ^ 31 - 1)) (2 ^ 31 - 1) v
def sat64 (v : Int) : Int := clampI (-(2 ^ 63 - 1)) (2 ^ 63 - 1) v
def satL (v l : Int) : Int := clampI (-l) l v

/-- m(K, x). -/
def mulShift (k : Int) (sh : Nat) (x : Int) : Int :=
  if sh = 0 then k * x else (k * x + 2 ^ (sh - 1)) / ((2 ^ sh : Nat) : Int)

/-- A sum of terms, saturating at every addition. -/
def sum64 (l : List Int) : Int := l.foldl (fun a x => sat64 (a + x)) 0

/-- Coefficient `i` of axis `x` applied to a signal. -/
def mk (r : Rd) (x i : Nat) (v : Int) : Int := mulShift (coef r x i) (coefShift r x i) v

/-- Nearest whole number of a / b, ties away from zero. -/
def roundAway (a : Int) (b : Nat) : Int :=
  if a < 0 then -(((2 * (-a) + b) / (2 * b : Nat) : Int)) else (2 * a + b) / (2 * b : Nat)

/-- a / b where the spec states no rounding: the quotient below or above, by a free bit (log entry 11). -/
def divFree (a : Int) (b : Nat) (free : Nat) : Int :=
  if a % (b : Int) = 0 then a / b else a / b + ((free % 2 : Nat) : Int)

def sgnI (v : Int) : Int := if v < 0 then -1 else if 0 < v then 1 else 0

/-! ### Position and angle -/

/-- CPR in force: of an SSI axis 2^SSI_BITS (R258). -/
def cprOf (r : Rd) (x : Nat) : Nat := if encSsi r x then 2 ^ ssiBits r x else cpr r x

/-- HOMED and Z_REF as read (R258). -/
def homedOf (r : Rd) (x : Nat) (a : Axis) : Bool := encSsi r x || a.homed
def zRefOf (r : Rd) (x : Nat) (a : Axis) : Int := if encSsi r x then 0 else a.zRef

/-- Loop period in SMP cycles (R264). -/
def loopCycles (r : Rd) (x : Nat) : Nat := loopN r x * pwmPer r x * 25

/-- P as presented at cycle `t`: of an SSI axis extrapolated from the last reading (R259). -/
def presentedP (r : Rd) (x : Nat) (a : Axis) (t : Nat) : Int :=
  if encSsi r x then a.p + a.ssiVel * ((t - a.ssiAt : Nat) : Int) / (max 1 (loopCycles r x) : Nat) else a.p

/-- Angle of a position, LSB 360°/2^24 (R259). -/
def angleOfP (r : Rd) (x : Nat) (a : Axis) (p : Int) : Nat :=
  ((p - zRefOf r x a - zeroPos r x) % (cprOf r x : Int)).toNat * 2 ^ 24 / cprOf r x

/-- Angle of an axis at cycle `t`. -/
def angleAt (s : State) (x t : Nat) : Nat := angleOfP (rd s) x (axis s x) (presentedP (rd s) x (axis s x) t)

/-- Angle of an axis now. -/
def angleNow (s : State) (x : Nat) : Nat := angleAt s x s.sys.cyc

/-- An axis's block for the sample in progress: one begun before a boundary completes under the old set (R273). -/
def axRd (s : State) (x : Nat) : Rd := fun id off =>
  match (axis s x).held with
  | some l => if id = 0x70 + x then l.getD off 0 else rd s id off
  | none => rd s id off

/-! ### Outputs (R261-R263) -/

/-- CMP for a drive value. -/
def cmpOf (r : Rd) (x : Nat) (u : Int) : Nat :=
  (clampI (fld (stw r x 1) 7 0) (pwmPer r x - fld (stw r x 1) 7 0)
    (((u + 2 ^ 31) * (pwmPer r x : Int) + 2 ^ 31) / 2 ^ 32)).toNat

/-- The mode drives the PWM pair. -/
def modeDrives (m : AxMode) : Bool :=
  match m with
  | .open | .velocity | .position | .profile => true
  | .off | .brake => false

def hasVel (m : AxMode) : Bool :=
  match m with
  | .velocity | .position | .profile => true
  | .off | .open | .brake => false

def hasPos (m : AxMode) : Bool :=
  match m with
  | .position | .profile => true
  | .off | .open | .velocity | .brake => false

/-- EN of an axis (R263). -/
def enPin (s : State) (x : Nat) : Bool :=
  domUp s 19 && !s.pwr.refLost && (modeDrives (axis s x).mode || (axis s x).mode == .brake)

/-- The PWM pair is switching (R263); else PWMH is low. -/
def pwmRuns (s : State) (x : Nat) : Bool := domUp s 19 && !s.pwr.refLost && modeDrives (axis s x).mode

/-- PWML held high by the BRAKE action. -/
def brakePin (s : State) (x : Nat) : Bool := domUp s 19 && !s.pwr.refLost && (axis s x).mode == .brake

/-! The PWM pair (R261, R262). The counter c runs from the valley 0 to the peak PER and back, one STR cycle, 25 cycles of DEVTIME,
a step; the reload points are its two ends. -/

/-- STR cycles since the last reload point. -/
def pwmStep (s : State) (x : Nat) : Nat := min (pwmPer (rd s) x) ((s.sys.cyc - (axis s x).reloadAt) / 25)

/-- c at `k` STR cycles from the last reload point, before it where `k` is negative. -/
def pwmCountAt (s : State) (x : Nat) (k : Int) : Nat := if (axis s x).peak then pwmPer (rd s) x - k.natAbs else k.natAbs

/-- The PWM counter c. -/
def pwmCount (s : State) (x : Nat) : Nat := pwmCountAt s x (pwmStep s x)

/-- The raw high-side signal there: high while c < CMP. -/
def pwmRaw (s : State) (x : Nat) (k : Int) : Bool :=
  decide (pwmCountAt s x k < if k < 0 then (axis s x).cmpWas else (axis s x).cmp)

/-- The raw signal has stood at `v` for DEAD cycles. -/
def pwmHeld (s : State) (x : Nat) (v : Bool) : Bool :=
  (List.range (fld (stw (rd s) x 1) 7 0 + 1)).all fun j => pwmRaw s x ((pwmStep s x : Int) - j) == v

/-- PWMH and PWML at the pins: each rises DEAD cycles after the other has fallen, so both are never high (R262, R263). -/
def pwmhPin (s : State) (x : Nat) : Bool := pwmRuns s x && pwmHeld s x true
def pwmlPin (s : State) (x : Nat) : Bool := if pwmRuns s x then pwmHeld s x false else brakePin s x

def axModeCode (m : AxMode) : Nat :=
  match m with
  | .off => 0 | .open => 1 | .velocity => 2 | .position => 3 | .profile => 4 | .brake => 5

def axModeOf (n : Nat) : AxMode :=
  if n = 1 then .open else if n = 2 then .velocity else if n = 3 then .position else if n = 4 then .profile else .off

/-! ### Mode OFF and the fault actions -/

/-- Law, remainders and generator cleared (R271). -/
def clearLaw (a : Axis) : Axis :=
  { a with iP := 0, iV := 0, rhoP := Blend.zero, rhoV := Blend.zero, bq1 := Biquad.zero, bq2 := Biquad.zero, w := 0,
           u := 0, vCmd := 0, vCmdSat := 0, uSat := 0, genPos := 0, genV := 0, genA := 0, isatV := false, isatP := false,
           osat := false, feRun := 0, cmpNext := none }

/-- OFF takes effect at once. -/
def axOff (a : Axis) : Axis := { clearLaw a with mode := .off }

/-- The action FAULT_ACT of R275: HOLD from the next sample, COAST and BRAKE at once. -/
def axAct (act : Nat) (a : Axis) : Axis :=
  let b := { a with faultActive := true, pendMove := none }
  if act = 0 then { b with pendMode := some ⟨.position, false, false, false, none⟩ }
  else if act = 1 then { axOff b with pendMode := none }
  else { clearLaw b with mode := .brake, pendMode := none }

/-- SAFE entry takes every axis that is not OFF and not already in an action into its FAULT_ACT (R275). -/
def axSafe (r : Rd) (x : Nat) (a : Axis) : Axis :=
  if a.mode = .off ∨ a.faultActive then a else { axAct (faultAct r x) a with cause := 4 }

/-- The action after a declaration: a driver fault or an encoder loss replaces HOLD by COAST, and a
driver fault BRAKE by COAST (R275). -/
def actFor (cause act : Nat) : Nat := if (cause = 2 ∨ cause = 3) ∧ act = 0 then 1 else if cause = 2 then 1 else act

/-! ### Encoders -/

/-- One sample of an input through its filter: a level held for `n` + 1 samples is accepted (R254). The first sample after
power-up is taken as the level, and no edge (DESIGN CHOICE, log entry 136). -/
def filtSample (n : Nat) (v : Bool) (f : PinFilt) : PinFilt :=
  match f.level with
  | none => ⟨some v, 0⟩
  | some l => if v = l then ⟨some l, 0⟩ else if n ≤ f.run then ⟨some v, 0⟩ else ⟨some l, f.run + 1⟩

/-- The accepted level, low before the first sample. -/
def filtLevel (f : PinFilt) : Bool := f.level.getD false

/-- Direction of a quadrature edge: up when ENCA leads (R254). -/
def quadStep (a0 b0 a1 b1 : Bool) : Int :=
  if a0 != a1 then (if a1 != b1 then 1 else -1) else (if b0 != b1 then (if a1 == b1 then 1 else -1) else 0)

/-- The filters take a pair of levels. -/
def axFilter (n : Nat) (v : Bool × Bool) (a : Axis) : Axis := { a with encA := filtSample n v.1 a.encA, encB := filtSample n v.2 a.encB }

/-- The levels accepted of a sample: an edge of either moves P by one (R254). The levels before are those of `a0`. -/
def axCount (dir : Bool) (a0 a : Axis) : Axis :=
  if a0.encA.level.isNone ∨ a0.encB.level.isNone then a
  else
    let d := quadStep (filtLevel a0.encA) (filtLevel a0.encB) (filtLevel a.encA) (filtLevel a.encB)
    { a with p := wrapI 32 (a.p + if dir then -d else d) }

/-- A sample in which both accepted levels change is illegal (R255). -/
def badStep (a0 a : Axis) : Bool :=
  a0.encA.level.isSome && a0.encB.level.isSome && filtLevel a0.encA != filtLevel a.encA && filtLevel a0.encB != filtLevel a.encB

/-- Deviation of an index from Z_REF (R256). -/
def indexDev (c : Nat) (p z : Int) : Int := (p - z + (c / 2 : Nat)) % (c : Int) - (c / 2 : Nat)

/-- Signed difference of two SSI readings modulo 2^bits (R258). -/
def ssiDiff (bits now prev : Nat) : Int := sgn bits (usgn bits ((now : Int) - prev))

/-- An SSI reading enters P. The first reading after power-up moves P from 0 (log entry 12). -/
def axSsi (bits v t : Nat) (a : Axis) : Axis :=
  let d := ssiDiff bits v (a.ssiLast.getD 0)
  { a with ssiLast := some v, p := wrapI 32 (a.p + d), ssiVel := (if a.ssiLast.isNone then 0 else d), ssiAt := t }

/-- The reading is an encoder loss: a step beyond 2^(bits − 2), or a constant SSID level (R258). -/
def ssiLoss (bits v : Nat) (const : Bool) (a : Axis) : Bool :=
  const || (a.ssiLast.isSome && decide ((2 ^ (bits - 2) : Int) < (ssiDiff bits v (a.ssiLast.getD 0)).natAbs))

/-! ### Profile generator (R268) -/

/-- D(v) ≤ x for v in Q16.16, x in Q.16 counts, A in Q8.24, J in Q0.32. -/
def stopsWithin (v x a j : Nat) : Bool :=
  if a * a ≤ v * j then decide (128 * v * v * j + 128 * v * a * a ≤ x * a * j)
  else decide (v * v * v * 65536 ≤ x * x * j)

/-- Bit-by-bit search for the largest speed, from bit `n` down. -/
def vstopStep : Nat → Nat → Nat → Nat → Nat → Nat
  | 0, v, x, a, j => if stopsWithin (v + 1) x a j then v + 1 else v
  | n + 1, v, x, a, j => vstopStep n (if stopsWithin (v + 2 ^ (n + 1)) x a j then v + 2 ^ (n + 1) else v) x a j

/-- vstop(x). -/
def vstop (x a j : Nat) : Nat := vstopStep 32 0 x a j

/-- D(v) in Q.16 counts. -/
def stopDist (v a j : Nat) : Nat :=
  if a * a ≤ v * j then (128 * v * v * j + 128 * v * a * a) / (max 1 (a * j))
  else isqrt (v * v * v * 65536 / max 1 j)

/-- One sample of the generator; a moves by at most JMAX, and `f2` is a free bit for the rounding of a in v that no rule states. -/
def genStep (r : Rd) (x f2 : Nat) (a : Axis) : Axis :=
  let d := wrapI 48 (a.target - a.genPos)
  let goal := if a.mode = .profile
    then sgnI d * min (vMax r x) ((vstop d.natAbs (aMax r x).toNat (jMax r x).toNat : Nat) : Int)
    else satL a.targetV (vMax r x)
  let dv := goal - a.genV
  let aGoal := if (dv.natAbs : Int) * 2 * jMax r x ≤ a.genA * a.genA ∧ sgnI a.genA = sgnI dv then 0
    else sgnI dv * aMax r x
  let a1 := a.genA + satL (aGoal - a.genA) (jMax r x / 256)
  let v1 := satL (a.genV + divFree a1 256 f2) (vMax r x)
  let p1 := wrapI 48 (a.genPos + v1)
  let left := wrapI 48 (a.target - p1)
  if a.mode = .profile ∧ left.natAbs < 65536 ∧ (v1.natAbs : Int) * 256 ≤ aMax r x ∧ (a1.natAbs : Int) * 256 ≤ jMax r x then
    match a.target2 with
    | none => { a with genPos := a.target, genV := 0, genA := 0, moveDone := true }
    | some t2 => { a with genPos := a.target, genV := 0, genA := 0, target := t2, target2 := some a.target }
  else { a with genPos := p1, genV := v1, genA := a1 }

/-! ### Blend remainders (R272) -/

def blendVal (b : Blend) : Int := if b.len ≤ b.k then 0 else roundAway (b.rho0 * ((b.len - b.k : Nat) : Int)) b.len
def blendNext (b : Blend) : Blend := { b with k := min b.len (b.k + 1) }
/-- A new remainder is added to the present value of the old, and decays afresh. -/
def blendAdd (b : Blend) (v : Int) (len : Nat) : Blend := if v = 0 then b else ⟨blendVal b + v, 0, len⟩

/-- An integrator beyond its limit is set to it; the excess goes to the remainder (R272, R273). -/
def limitI (i lim : Int) (b : Blend) (len : Nat) : Int × Blend := (satL i lim, blendAdd b (i - satL i lim) len)

/-! ### The control law (R266, R267) -/

/-- One biquad in direct form I; `i` is the number of its coefficient B0. -/
def biquad (r : Rd) (x i : Nat) (b : Biquad) (v : Int) : Int × Biquad :=
  let y := sat32 (sum64 [mk r x i v, mk r x (i + 1) b.x1, mk r x (i + 2) b.x2, -(mk r x (i + 3) b.y1), -(mk r x (i + 4) b.y2)])
  (y, ⟨v, b.x1, y, b.y1⟩)

/-- Sign of the clamp of `v` at ±l: 0 when it was not clamped. -/
def clampSign (v l : Int) : Int := if l < v then 1 else if v < -l then -1 else 0

/-- The increment is held against a clamp of the previous sample (R267). -/
def heldInc (sat inc : Int) : Bool := (decide (sat = 1) && decide (0 < inc)) || (decide (sat = -1) && decide (inc < 0))

/-- p of R266 from a count. -/
def pOf (c : Int) : Int := wrapI 40 (c * 256)

/-- The generator's outputs r, vr, ar for the law. -/
def refPos (a : Axis) : Int := if a.mode = .profile then rdivI a.genPos 256 else a.target / 256
def refVel (a : Axis) : Int := if a.mode = .position then 0 else a.genV
def refAcc (a : Axis) : Int := if a.mode = .position then 0 else a.genA

/-- Position error. -/
def errP (a : Axis) (p : Int) : Int := sat32 (wrapI 40 (refPos a - p))

/-- Position stage: I_p and v_cmd. `first` presets I_p to give `vWant` (R271 step 2). -/
def posStage (r : Rd) (x : Nat) (p : Int) (preset : Option Int) (a : Axis) : Axis :=
  let e := errP a p
  let dP := -(mk r x 2 (wrapI 40 (p - a.pPrev)))
  let rest := sum64 [mk r x 0 e, dP, mk r x 3 (refVel a)]
  match preset with
  | some want =>
    let q := limitI (want - rest - blendVal a.rhoP) (ilimP r x) a.rhoP (blendLen r x)
    let v := sum64 [rest, q.1, blendVal q.2]
    { a with iP := q.1, rhoP := q.2, vCmd := satL v (vcmdLim r x), vCmdSat := clampSign v (vcmdLim r x), isatP := false, ferr := e }
  | none =>
    let inc := mk r x 1 e
    let held := heldInc a.vCmdSat inc
    let q := limitI a.iP (ilimP r x) a.rhoP (blendLen r x)
    let i := if held then q.1 else satL (sat64 (q.1 + inc)) (ilimP r x)
    let v := sum64 [mk r x 0 e, i, dP, mk r x 3 (refVel a), blendVal q.2]
    { a with iP := i, rhoP := q.2, vCmd := satL v (vcmdLim r x), vCmdSat := clampSign v (vcmdLim r x), isatP := held, ferr := e }

/-- Velocity stage: I_v and w. `preset` is the drive value to be met (R271 step 3). -/
def velStage (r : Rd) (x : Nat) (vMeas : Int) (preset : Option Int) (a : Axis) : Axis :=
  let e := sat32 (a.vCmd - vMeas)
  let rest := sum64 [mk r x 4 e, mk r x 6 (refAcc a)]
  let b := if hasPos a.mode then a else { a with ferr := e }
  match preset with
  | some want =>
    let q := limitI (want - rest - blendVal a.rhoV) (ilimV r x) a.rhoV (blendLen r x)
    { b with iV := q.1, rhoV := q.2, w := sat32 (sum64 [rest, q.1, blendVal q.2]), isatV := false }
  | none =>
    let inc := mk r x 5 e
    let held := heldInc a.uSat inc
    let q := limitI a.iV (ilimV r x) a.rhoV (blendLen r x)
    let i := if held then q.1 else satL (sat64 (q.1 + inc)) (ilimV r x)
    { b with iV := i, rhoV := q.2, w := sat32 (sum64 [mk r x 4 e, i, mk r x 6 (refAcc a), blendVal q.2]), isatV := held }

/-- The drive path: biquads, OUT_LIM, CMP for the next reload point. -/
def driveStage (r : Rd) (x : Nat) (a : Axis) : Axis :=
  let y1 := biquad r x 7 a.bq1 a.w
  let y2 := biquad r x 12 a.bq2 y1.1
  let u := satL y2.1 (outLim r x)
  { a with bq1 := y1.2, bq2 := y2.2, u := u, uSat := clampSign y2.1 (outLim r x), osat := decide ((u.natAbs : Int) = outLim r x),
           cmpNext := some (cmpOf r x u) }

/-! ### Hand-over (R271) -/

/-- Step 1: the generator at the first sample of a mode. -/
def genInit (r : Rd) (x : Nat) (c p vMeas : Int) (old : AxMode) (a : Axis) : Axis :=
  match a.mode with
  | .profile =>
    let v := vMeas * 256
    { a with genPos := wrapI 48 (p * 256), genV := v, genA := 0, target2 := none,
             target := wrapI 48 (p * 256 + sgnI v * (stopDist v.natAbs (aMax r x).toNat (jMax r x).toNat : Nat)) }
  | .velocity =>
    let v := if hasVel old then a.vCmd * 256 else vMeas * 256
    { a with genV := v, genA := 0, targetV := v }
  | .position => { a with target := c * 65536, target2 := none }
  | .off | .open | .brake => a

/-- A STEER_MOVE waiting takes effect (R269). -/
def takeMove (a : Axis) : Axis :=
  match a.pendMove with
  | none => a
  | some (w1, t2) =>
    let b := { a with pendMove := none }
    match a.mode with
    | .open => { b with drive := w1 }
    | .velocity => { b with targetV := w1 }
    | .position => { b with target := w1 * 65536, target2 := none }
    | .profile => { b with target := w1 * 65536, target2 := t2.map (· * 65536) }
    | .off | .brake => b

/-- The sample's error is beyond its limit (R274). -/
def beyond (r : Rd) (x : Nat) (a : Axis) : Bool :=
  if hasPos a.mode then decide (feLimit r x ≠ 0) && decide (feLimit r x * 256 < a.ferr.natAbs)
  else if a.mode = .velocity then decide (feVlim r x ≠ 0) && decide (feVlim r x < a.ferr.natAbs)
  else false

/-- One loop sample of an axis: mode change first (after any coefficient swap), then move, generator,
law, limits. `c` is the latched count. -/
def axSample (r : Rd) (x : Nat) (c : Int) (f2 : Nat) (a : Axis) : Axis :=
  let p := pOf c
  let vMeas := sat32 (wrapI 40 (p - a.pPrev))
  let old := a.mode
  let change := match a.pendMode with | some m => if m.wait then none else some m.mode | none => none
  let a1 := match change with
    | some .off => axOff { a with pendMode := none }
    | some m => { a with mode := m, pendMode := none, feRun := 0 }
    | none => a
  let fresh := change.isSome
  let a2 := takeMove (if fresh then genInit r x c p vMeas old a1 else a1)
  let a3 := if fresh then a2 else
    match a2.mode with
    | .velocity | .profile => genStep r x f2 a2
    | .off | .open | .position | .brake => a2
  let wLast := a.w
  let a4 := match a3.mode with
    | .off | .brake => a3
    | .open =>
      let b := if fresh then { a3 with rhoV := ⟨wLast - a3.drive, 0, blendLen r x⟩ } else a3
      driveStage r x { b with w := sat32 (b.drive + blendVal b.rhoV), isatV := false, isatP := false }
    | .velocity =>
      let v := satL (a3.genV / 256) (vcmdLim r x)
      driveStage r x (velStage r x vMeas (if fresh then some wLast else none)
        { a3 with vCmd := v, vCmdSat := clampSign (a3.genV / 256) (vcmdLim r x), isatP := false })
    | .position | .profile =>
      let want := if fresh ∧ ¬ hasPos old then some (if hasVel old then a.vCmd else vMeas) else none
      driveStage r x (velStage r x vMeas (if fresh then some wLast else none) (posStage r x p want a3))
  let a5 := { a4 with
    rhoP := blendNext a4.rhoP, rhoV := blendNext a4.rhoV, pPrev := p, vel := vMeas, due := false, held := none
    pendMode := a4.pendMode.map fun m => { m with wait := m.wait && !m.crossed, crossed := false } }
  if beyond r x a5 then { a5 with feRun := a5.feRun + 1 } else { a5 with feRun := 0 }

/-- A change of ENC_TYPE, DIR or CPR makes the next index a first index (R256); a boundary frees a mode change that waited for it,
for the sample that follows the crossing; a sample in progress completes under the old set (R270, R273). -/
def axSwap (r0 r1 : Rd) (x : Nat) (a : Axis) : Axis :=
  { a with
    idxFirst := a.idxFirst || (encSsi r0 x != encSsi r1 x) || (encDir r0 x != encDir r1 x) || decide (cpr r0 x ≠ cpr r1 x)
    held := if a.due then some (a.held.getD ((List.range 37).map (r0 (0x70 + x)))) else none
    pendMode := a.pendMode.map fun m => { m with wait := m.wait && a.due, crossed := m.wait && a.due } }

/-- Cycle of the reload point that comes next. -/
def reloadNext (r : Rd) (x : Nat) (a : Axis) : Nat := a.reloadAt + 25 * pwmPer r x

/-- Reload point: CMP loads, every LOOP_N-th starts a sample and latches P (R262, R264). -/
def axReload (r : Rd) (x : Nat) (a : Axis) : Axis :=
  let b := { a with cmp := a.cmpNext.getD a.cmp, cmpNext := none, cmpWas := a.cmp, reloadAt := reloadNext r x a, peak := !a.peak }
  if loopN r x ≤ a.reloads + 1 then { b with reloads := 0, due := true, pLatch := a.p } else { b with reloads := a.reloads + 1 }

end Sys2Proof.Machine
end

