-- ==== Sys2Proof/Machine/Curves.lean ====
section
/-!
DEFINITION. From code to quantity: the ratio of a conversion, the linearisation curves and the
interpolation between temperature sets (R192, R242-R245). A value that a curve's error bound leaves
open is a free value within the bound (log entry 15).
-/

namespace Sys2Proof.Machine

/-- A rational number: numerator and positive denominator. -/
abbrev Ratio := Int × Nat

/-- A ratio in signed Q16.16, rounded to nearest with ties away from zero (R243). -/
def q16 (v : Ratio) : Int := roundAway (v.1 * 65536) v.2

/-- Value at `t` by the rule of R192 over sets (temperature, value) in rising temperature. -/
def interp : List (Int × Int) → Int → Int
  | [], _ => 0
  | [p], _ => p.2
  | p :: q :: r, t =>
    if t ≤ p.1 then p.2
    else if t < q.1 then roundAway (p.2 * (q.1 - p.1) + (q.2 - p.2) * (t - p.1)) (q.1 - p.1).toNat
    else interp (q :: r) t

/-- Whether a curve works on a resistance (R243). -/
def curveIsR (c : Nat) : Bool := decide (1 ≤ c ∧ c ≤ 4)
def curveIsTc (c : Nat) : Bool := decide (5 ≤ c ∧ c ≤ 8)

/-- Output range of curves 1-8, °C. -/
def curveRange (c : Nat) : Int × Int :=
  if c = 1 ∨ c = 2 then (-200, 850) else if c = 3 ∨ c = 4 then (-55, 150) else if c = 5 then (-200, 1372)
  else if c = 6 then (-210, 1200) else if c = 7 then (-200, 1300) else (-200, 400)

/-- Callendar-Van Dusen: R(t) / R0 in units of 10^-15 / 2^64 for t in Q16.16 °C (curves 1, 2). -/
def cvd (t : Int) : Int :=
  10 ^ 15 * 2 ^ 64 + 39083 * 10 ^ 8 * t * 2 ^ 48 - 5775 * 10 ^ 5 * t * t * 2 ^ 32
    - (if t < 0 then 4183 * (t - 6553600) * t * t * t else 0)

/-- Greatest t in Q16.16 with R(t) ≤ r · R0, from `lo` up, `n` bits of search. -/
def cvdStep : Nat → Int → Ratio → Int
  | 0, t, r => if cvd (t + 1) * r.2 ≤ r.1 * (10 ^ 15 * 2 ^ 64) then t + 1 else t
  | n + 1, t, r =>
    let c := t + 2 ^ (n + 1)
    cvdStep n (if cvd c * r.2 ≤ r.1 * (10 ^ 15 * 2 ^ 64) then c else t) r

/-- Pt temperature in Q16.16 for a resistance in units of R0, from -200 °C up. -/
def ptTemp (r : Ratio) : Int := cvdStep 26 (-200 * 65536) r

/-- Sum of z^(2k+1)/(2k+1) in 2^-96, z in 2^-96; `n` terms from k. -/
def atanhSum : Nat → Nat → Nat → Nat → Nat
  | 0, _, _, _ => 0
  | n + 1, k, zp, z2 => zp / (2 * k + 1) + atanhSum n (k + 1) (zp * z2 / 2 ^ 96) z2

/-- ln(p/q) in 2^-96 for p ≥ q > 0 and p < 2q. -/
def lnSmall (p q : Nat) : Nat :=
  let z := (p - q) * 2 ^ 96 / (p + q)
  2 * atanhSum 32 0 z (z * z / 2 ^ 96)

/-- Halve p/q to below 2, counting. -/
def lnNorm : Nat → Nat → Nat → Nat → Nat × Nat × Nat
  | 0, p, q, e => (p, q, e)
  | n + 1, p, q, e => if 2 * q ≤ p then lnNorm n p (2 * q) (e + 1) else (p, q, e)

/-- ln(p/q) in 2^-96 for positive p, q. -/
def lnUp (p q : Nat) : Nat := let m := lnNorm 200 p q 0; m.2.2 * lnSmall 2 1 + lnSmall m.1 m.2.1

/-- ln of a positive ratio in 2^-96. -/
def lnRatio (p q : Nat) : Int := if q ≤ p then (lnUp p q : Int) else -(lnUp q p : Int)

/-- NTC temperature in Q16.16 °C: 1/T = 1/298.15 + ln(R/10000)/B (curves 3, 4). -/
def ntcTemp (b : Nat) (r : Ratio) : Int :=
  if r.1 ≤ 0 then 150 * 65536 + 1
  else
    let l := lnRatio r.1.toNat (10000 * r.2)
    let den := 100 * (b : Int) * 2 ^ 96 + 29815 * l
    if den ≤ 0 then 150 * 65536 + 1
    else rdivI (29815 * (b : Int) * 2 ^ 96 * 65536) den.toNat - rdivI (27315 * 65536) 100

/-- A curve's value with its bound: held to the range with OVR beyond it, else within ±`err` of the
reference by a free value. -/
def boundCurve (c : Nat) (t : Int) (err free : Nat) : Int × Bool :=
  let rg := curveRange c
  if t < rg.1 * 65536 then (rg.1 * 65536, true)
  else if rg.2 * 65536 < t then (rg.2 * 65536, true)
  else (clampI (rg.1 * 65536) (rg.2 * 65536) (t - err + ((free % (2 * err + 1) : Nat) : Int)), false)

/-! ### Thermocouples (R243, R244)

The spec names the reference functions of IEC 60584-1 and does not print them: their coefficients are PRESUMED (log entry 14). -/

/-- A polynomial in t (Q16.16 °C), its coefficients as m × 10^-e mV from the constant up; value in 10^-45 mV. -/
def tcPoly (l : List (Int × Nat)) (t : Int) : Int := l.foldr (fun c acc => c.1 * 10 ^ (45 - c.2) + acc * t / 65536) 0

/-- e^-x in 2^-96 for x in 2^-96 below 256: the series at x / 1,024, squared ten times. -/
def expNeg (x : Nat) : Nat :=
  let y := x / 1024
  let p := (upto 1 24).foldl (fun (a : Int × Int) (k : Nat) => (a.1 - a.2 * y / (2 ^ 96 * k : Nat), -(a.2 * y / (2 ^ 96 * k : Nat)))) ((2 ^ 96 : Int), (2 ^ 96 : Int))
  (List.range 10).foldl (fun v _ => v * v / 2 ^ 96) p.1.toNat

/-- Type K's exponential term for t ≥ 0: 0.1185976 mV × e^(-0.0001183432 (t - 126.9686)²), in 10^-45 mV. -/
def tcExp (t : Int) : Int :=
  let d := (10000 * t - 1269686 * 65536).natAbs
  (1185976 * 10 ^ 38 * (expNeg (1183432 * d * d * 2 ^ 64 / 10 ^ 18) : Nat) / 2 ^ 96 : Int)

/-- Coefficients of types K, J, N and T, below and above the change of polynomial. -/
def tcK0 : List (Int × Nat) :=
  [(0, 0), (39450128025, 12), (23622373598, 15), (-32858906784, 17), (-49904828777, 19), (-67509059173, 21), (-57410327428, 23),
   (-31088872894, 25), (-10451609365, 27), (-19889266878, 30), (-16322697486, 33)]
def tcK1 : List (Int × Nat) :=
  [(-17600413686, 12), (38921204975, 12), (18558770032, 15), (-99457592874, 18), (31840945719, 20), (-56072844889, 23),
   (56075059059, 26), (-32020720003, 29), (97151147152, 33), (-12104721275, 36)]
def tcJ0 : List (Int × Nat) :=
  [(0, 0), (50381187815, 12), (3047583693, 14), (-8568106572, 17), (13228195295, 20), (-17052958337, 23), (20948090697, 26),
   (-12538395336, 29), (15631725697, 33)]
def tcJ1 : List (Int × Nat) :=
  [(29645625681, 8), (-14976127786, 10), (31787103924, 13), (-31847686701, 16), (15720819004, 19), (-30691369056, 23)]
def tcN0 : List (Int × Nat) :=
  [(0, 0), (26159105962, 12), (10957484228, 15), (-93841111554, 18), (-46412039759, 21), (-26303357716, 22), (-22653438003, 24),
   (-76089300791, 27), (-93419667835, 30)]
def tcN1 : List (Int × Nat) :=
  [(0, 0), (25929394601, 12), (1571014188, 14), (43825627237, 18), (-25261169794, 20), (64311819339, 23), (-10063471519, 25),
   (99745338992, 29), (-60863245607, 32), (20849229339, 35), (-30682196151, 39)]
def tcT0 : List (Int × Nat) :=
  [(0, 0), (38748106364, 12), (44194434347, 15), (11844323105, 17), (20032973554, 18), (90138019559, 20), (22651156593, 21),
   (36071154205, 23), (38493939883, 25), (28213521925, 27), (14251594779, 29), (48768662286, 32), (1079553927, 33),
   (13945027062, 37), (79795153927, 41)]
def tcT1 : List (Int × Nat) :=
  [(0, 0), (38748106364, 12), (3329222788, 14), (20618243404, 17), (-21882256846, 19), (10996880928, 21), (-30815758772, 24),
   (4547913529, 26), (-27512901673, 30)]

/-- Reference function of curves 5-8: E in pV at t in Q16.16 °C. -/
def tcRef (c : Nat) (t : Int) : Int :=
  roundAway
    (if c = 5 then (if t < 0 then tcPoly tcK0 t else tcPoly tcK1 t + tcExp t)
     else if c = 6 then tcPoly (if t ≤ 760 * 65536 then tcJ0 else tcJ1) t
     else if c = 7 then tcPoly (if t < 0 then tcN0 else tcN1) t
     else tcPoly (if t < 0 then tcT0 else tcT1) t) (10 ^ 36)

/-- Temperature `t` lies in the curve's range, and its E is at most `e`. -/
def tcBelow (c : Nat) (e t : Int) : Bool := decide (t ≤ (curveRange c).2 * 65536) && decide (tcRef c t ≤ e)

/-- Greatest t of the range with E_ref(t) ≤ e, from `t` up, `n` bits of search. -/
def tcStep (c : Nat) (e : Int) : Nat → Int → Int
  | 0, t => if tcBelow c e (t + 1) then t + 1 else t
  | n + 1, t => tcStep c e n (if tcBelow c e (t + 2 ^ (n + 1)) then t + 2 ^ (n + 1) else t)

/-- Error of the inverse function of curves 5-8, Q16.16: the standard's greatest inverse error and 0.002 °C. -/
def tcErr (c : Nat) : Nat := if c = 5 then 4063 else if c = 6 then 3407 else 2752

/-- Temperature of curves 5-8 at E in pV: a free value within the error of the reference function's exact inverse, with OVR
beyond the range. -/
def tcTemp (c : Nat) (e : Int) (free : Nat) : Int × Bool :=
  let rg := curveRange c
  if e < tcRef c (rg.1 * 65536) then (rg.1 * 65536, true)
  else if tcRef c (rg.2 * 65536) < e then (rg.2 * 65536, true)
  else boundCurve c (tcStep c e 26 (rg.1 * 65536)) (tcErr c) free

/-- User table of curve 9: points (x in Q24.8, y in Q16.16), x as a ratio (R245). -/
def userTable (x : Ratio) : List (Int × Int) → Int × Bool
  | [] => (0, true)
  | [p] => (p.2, decide (p.1 * x.2 < x.1 * 256))
  | p :: q :: r =>
    if x.1 * 256 < p.1 * x.2 then (p.2, true)
    else if x.1 * 256 < q.1 * x.2 then
      (roundAway (p.2 * ((q.1 - p.1) * x.2) + (q.2 - p.2) * (x.1 * 256 - p.1 * x.2)) ((q.1 - p.1).toNat * x.2), false)
    else userTable x (q :: r)

end Sys2Proof.Machine
end

