-- ==== Sys2Proof/Machine/Hk.lean ====
section
/-!
DEFINITION. The housekeeping converter's operations (D18): entries, gain, results, the sequencer's moves,
injected requests, excitation, bias outputs (R200-R252).
-/

namespace Sys2Proof.Machine

/-- The HKC and EXC blocks for the entry in hand: one begun before a boundary completes under the configuration it began with
(R25, R215, R249). -/
def hkRd (s : State) : Rd := fun id off =>
  match s.hk.held with
  | some l => (match lookupNat l id with | some ws => ws.getD off 0 | none => rd s id off)
  | none => rd s id off

/-- The three words of an entry. -/
abbrev EntW := Word × Word × Word

/-- Entry `n` of the table in force (R230). -/
def tableEnt (s : State) (n : Nat) : EntW := (rd s 0x61 (2 + 3 * n), rd s 0x61 (3 + 3 * n), rd s 0x61 (4 + 3 * n))

def ePos (e : EntW) : Nat := fld e.1 31 26
def eNeg (e : EntW) : Nat := fld e.1 25 20
/-- An internal channel ignores NEG, GAIN, AR_EN, REF, EXC_SET, TDAC and CURVE (R201). -/
def eInternal (e : EntW) : Bool := decide (32 ≤ ePos e)
def eSingle (e : EntW) : Bool := eInternal e || eNeg e == 63
def eGain (e : EntW) : Nat := if eInternal e then 0 else fld e.1 19 17
def eAr (e : EntW) : Bool := !eInternal e && bit e.1 16
def eArMin (e : EntW) : Nat := fld e.1 15 13
def eArMax (e : EntW) : Nat := fld e.1 12 10
def eFilter (e : EntW) : Nat := fld e.1 9 8
def eRef (e : EntW) : Nat := if eInternal e then 0 else fld e.1 7 6
def eFmt (e : EntW) : Nat := fld e.1 5 4
def eWaitPwm (e : EntW) : Bool := bit e.1 3
def eTdac (e : EntW) : Bool := !eInternal e && bit e.1 2
def eInteg (e : EntW) : Nat := fld e.2.1 31 12
def eCurve (e : EntW) : Nat := if eInternal e then 0 else fld e.2.1 11 8
/-- The excitation set applied: none on an internal channel or with the test DAC (R201, R225). -/
def eExc (e : EntW) : Nat := if eInternal e || eTdac e then 0 else fld e.2.1 7 5
def eDelay (e : EntW) : Nat := fld e.2.2 31 16
def eRepeat (e : EntW) : Nat := fld e.2.2 15 8

/-- GAIN clamped to [AR_MIN, AR_MAX]; AR_MIN above AR_MAX leaves AR_MAX (R204). -/
def clampGain (e : EntW) (g : Nat) : Nat :=
  if eAr e then (if eArMax e < eArMin e then eArMax e else clampN (eArMin e) (eArMax e) g) else eGain e

def hkEnt (s : State) (n : Nat) : HkEnt := tget HkEnt.reset s.hk.ents n
def modHkEnt (n : Nat) (f : HkEnt → HkEnt) (s : State) : State :=
  { s with hk := { s.hk with ents := tmod HkEnt.reset s.hk.ents n f } }

/-- A full HKSEQ entry lies in range (R200, R217). -/
def entInRange (e : EntW) : Bool := wordInRange 0x61 2 e.1 && wordInRange 0x61 3 e.2.1 && wordInRange 0x61 4 e.2.2

/-! ### Factors (R207, R221, R224) -/

/-- OTP factors of a gain within the bounds of R221. -/
def otpOff (g : Nat) : Int := ((Config.otpOffset g % 0x20001 : Nat) : Int) - 0x10000
def otpGf (g : Nat) : Nat := 0x3F5C29 + Config.otpGainf g % (0x40A3D7 - 0x3F5C29 + 1)

def hkSets (s : State) (g : Nat) : List HkSet := tget [] s.hk.sets g

/-- OFFSET and GAINF of a gain at the latest TEMP_HK. -/
def hkFactors (s : State) (g : Nat) : Int × Nat :=
  match hkSets s g with
  | [] => (otpOff g, otpGf g)
  | l =>
    let srt := sortBy HkSet.t l
    let t := s.hk.tempHk.getD 0
    (interp (srt.map fun x => (x.t, x.off)) t, (interp (srt.map fun x => (x.t, (x.gainf : Int))) t).toNat)

/-- The set nearest in temperature, ties to the lower; its index. -/
def nearestSet (l : List Int) (t : Int) : Nat :=
  let d := fun x => 2 * (((x : Int) - t).natAbs : Int) + (if t < x then 1 else 0)
  let best := l.foldl (fun m x => if d x < m then d x else m) (d (l.headD 0))
  (l.findIdx? fun x => d x == best).getD 0

/-- Place a new set (R224): within 2.5 °C replaces, else added below 4, else the nearest is replaced. The
newest set stands first. -/
def placeHkSet (n : HkSet) (l : List HkSet) : List HkSet :=
  let i := nearestSet (l.map HkSet.t) n.t
  if (l.any fun x => decide ((x.t - n.t).natAbs ≤ 20)) || decide (4 ≤ l.length) then n :: l.eraseIdx i else n :: l

/-! ### Results (R207, R210, R211, R242-R244) -/

/-- Corrected code of a raw value (LSB 1/256 code), and whether it lies beyond full scale. -/
def corrected (f : Int × Nat) (raw : Int) (ovr : Bool) : Int × Bool :=
  let c := rdivI ((raw - f.1) * (f.2 : Int)) (2 ^ 30)
  if ovr then (if raw < 0 then -(2 ^ 23) else 2 ^ 23 - 1, true)
  else if c < -(2 ^ 23) then (-(2 ^ 23), true)
  else if 2 ^ 23 - 1 < c then (2 ^ 23 - 1, true)
  else (c, false)

/-- The code as RIGHT shows it. -/
def codeField (single : Bool) (c : Int) : Nat := if single then (c + 0x800000).toNat else usgn 32 c

/-- V_ref in mV (R242). -/
def vrefMv (s : State) (ref : Nat) : Ratio :=
  if ref = 0 then (2500, 1)
  else if ref = 2 then (s.hk.vhk.getD 0, 65536)
  else if extRef (hkRd s) = 0 then (1000, 1) else ((extRef (hkRd s) : Int), 10)

/-- V_in in mV. -/
def vinMv (s : State) (e : EntW) (g : Nat) (c : Int) : Ratio :=
  let v := vrefMv s (eRef e)
  (c * v.1, v.2 * 2 ^ g * 2 ^ 23)

/-- Nominal current of a level, µA (R233). -/
def levelUa (l : Nat) : Nat :=
  if l = 1 then 10 else if l = 2 then 50 else if l = 3 then 100 else if l = 4 then 250 else if l = 5 then 500
  else if l = 6 then 1000 else 0

/-- Fields of a 9-bit source setting: MODE, LEVEL, PIN. -/
def srcMode (v : Nat) : Bool := decide (v / 256 % 2 = 1)
def srcLevel (v : Nat) : Nat := v / 32 % 8
def srcPin (v : Nat) : Nat := v % 32

/-- The four sources of a set as they are switched; an off source is 0 (R235). -/
def setSources (s : State) (k : Nat) : List Nat :=
  (List.range 4).map fun n =>
    if k = 0 then 0 else
      let v := excSrc (hkRd s) k n
      if srcLevel v = 0 then 0 else v

/-- I_POS of an entry's set, µA (R242). -/
def iPos (s : State) (e : EntW) : Nat :=
  (setSources s (eExc e)).foldl (fun a v => if v ≠ 0 ∧ srcMode v = false ∧ srcPin v = ePos e then a + levelUa (srcLevel v) else a) 0

/-- R in Ω, where it can be formed (R242). -/
def resistance (s : State) (e : EntW) (g : Nat) (c : Int) : Option Ratio :=
  if eRef e = 1 ∧ eExc e ≠ 0 ∧ rRef (hkRd s) (eExc e) ≠ 0 then some (c * (rRef (hkRd s) (eExc e) : Int), 2 ^ g * 2 ^ 23 * 16)
  else if iPos s e = 0 then none
  else let v := vinMv s e g c; some (v.1 * 1000, v.2 * iPos s e)

/-- Cold-junction temperature, Q16.16 °C (R244). -/
def coldJunction (s : State) : Option Int :=
  if cjMode (hkRd s) then
    let h := hkEnt s (cjEntry (hkRd s))
    if h.has && !h.bad then some h.eng else none
  else s.hk.tempHk.map (· * 8192)

/-- Points of the user table. -/
def userPoints (s : State) : List (Int × Int) := (List.range 16).map fun i => (utX (hkRd s) i, utY (hkRd s) i)

/-- Engineering value of a corrected code: value in Q16.16, OVR; none without a cold junction. -/
def engValue (s : State) (e : EntW) (g : Nat) (c : Int) (free : Nat) : Option (Int × Bool) :=
  if eInternal e then
    if 48 ≤ ePos e then some (q16 (c * 5000, 2 ^ 23), false) else some (Config.dieSensor (ePos e) c, false)
  else
    let cv := eCurve e
    if cv = 0 then
      let v := q16 (vinMv s e g c)
      some (clampI (-32767 * 65536) (32767 * 65536) v, decide (v < -32767 * 65536 ∨ 32767 * 65536 < v))
    else if curveIsR cv then
      match resistance s e g c with
      | none => some (-(2 ^ 31), true)
      | some r =>
        if cv ≤ 2 then
          let u : Ratio := (r.1, r.2 * (if cv = 1 then 100 else 1000))
          let t := if u.1 * (10 ^ 15 * 2 ^ 64) < cvd (-200 * 65536) * u.2 then -200 * 65536 - 1 else ptTemp u
          some (boundCurve cv t 65 free)
        else some (boundCurve cv (ntcTemp (if cv = 3 then 3435 else 3950) r) 130 free)
    else if curveIsTc cv then
      match coldJunction s with
      | none => none
      | some tcj =>
        let v := vinMv s e g c
        some (tcTemp cv (rdivI (v.1 * 1000000000) v.2 + tcRef cv tcj) free)
    else
      match resistance s e g c with
      | some r => some (userTable r (userPoints s))
      | none => some (userTable (vinMv s e g c) (userPoints s))

/-- A result's 64 bits (R211). -/
def resultBits (ent gain : Nat) (stale settling opn short ovr blanked exc : Bool) (pass value : Nat) : Nat :=
  put ent 8 56 + put gain 3 53 + put (b2n stale) 1 52 + put (b2n settling) 1 51 + put (b2n opn) 1 50
    + put (b2n short) 1 49 + put (b2n ovr) 1 48 + put (b2n blanked) 1 47 + put (b2n exc) 1 46 + put pass 8 32 + put value 32 0

/-- ENTRY code of what is being converted: an entry, a host request, a supervisor read. -/
def hkCode (s : State) : Nat :=
  match s.hk.injCur with
  | none => s.hk.entry
  | some i => match i.tag with | some t => 0x80 + t | none => 0xFF

/-- Put a result on its way to the buffer. -/
def hkOut (v : Nat) (s : State) : State :=
  let s1 := { s with hk := { s.hk with outQ := s.hk.outQ ++ [v] } }
  if s.hk.injCur.isSome then s1
  else putItem (0x40 + s.hk.entry) ((if eFmt s.hk.curEnt = 0 then v % 2 ^ 24 else v % 2 ^ 32 / 256 : Nat) : Int) s1

/-- Last value of what is in hand: an entry's own memory, none for an injected request. -/
def lastValue (s : State) : Nat := if s.hk.injCur.isSome then 0 else (hkEnt s s.hk.entry).last

/-- Bias outputs that follow an entry's result (R247, R248): one step toward the target. -/
def slewTo (cur tgt step : Nat) : Nat :=
  if step = 0 then tgt else if cur < tgt then min tgt (cur + step) else max tgt (cur - step)

/-- Target of output `o` at temperature `t` in Q16.16. -/
def biasTarget (r : Rd) (o : Nat) (t : Int) : Nat :=
  (clampI 0 4095 ((biasCode r o : Int) + roundAway (biasSlope r o * (t - biasT0 r o * 8192)) (256 * 65536))).toNat

/-- Move an output one step; a disabled output stands at 0 V (R246). -/
def biasMove (o : Nat) (s : State) : State :=
  let r := rd s
  let tgt := if biasComp r o then tget 0 s.hk.biasTgt o else biasCode r o
  let cur := tget 0 s.hk.biasOut o
  let v := if biasEn r o then slewTo cur tgt (biasSlew r o) else 0
  { s with hk := { s.hk with biasOut := tset 0 s.hk.biasOut o v } }

/-- BIAS_RECOMPUTE at a result of entry `n`: a good result gives a new target, another holds it. -/
def biasResult (n : Nat) (good : Option Int) (s : State) : State :=
  each (List.range 4) (fun o s =>
    if biasComp (rd s) o && biasSrc (rd s) o == n then
      match good with
      | some t => biasMove o { s with hk := { s.hk with biasTgt := tset 0 s.hk.biasTgt o (biasTarget (rd s) o t), biasHold := remNat s.hk.biasHold o } }
      | none => { s with hk := { s.hk with biasHold := addNew s.hk.biasHold o } }
    else s) s

/-- Every bank temperature is fresh: TEMP_HOLD clears (R16). -/
def tempHoldNow (s : State) : State :=
  { s with sys := { s.sys with tempHold := !(domUp s 18 && (List.range 8).all fun g => (calGrp s g).fresh) } }

/-- A STALE value of an internal temperature channel sets TEMP_HOLD, and ends a supervisor read's outcome (R16, R182). -/
def tempStale (s : State) : State :=
  let p := ePos s.hk.curEnt
  let s0 := if 32 ≤ p ∧ p ≤ 43 then { s with sys := { s.sys with tempHold := true } } else s
  let s1 := if 32 ≤ p ∧ p ≤ 40 then modCalGrp (p - 32) (fun x => { x with fresh := false }) s0 else s0
  match s.hk.injCur with
  | some i => if i.tag.isNone then modCalGrp i.grp (fun x => { x with readRes := 2 }) s1 else s1
  | none => s1

/-- Write a STALE result: the last value again, with OPEN, SHORT or BLANKED (R211). -/
def hkStale (opn short blanked : Bool) (s : State) : State :=
  let s1 := hkOut (resultBits (hkCode s) s.hk.curGain true false opn short false blanked false s.hk.passes (lastValue s)) s
  let s2 := tempStale (if blanked then { s1 with hk := { s1.hk with blankedCnt := satAdd 16 s1.hk.blankedCnt 1 } } else s1)
  if s2.hk.injCur.isSome then s2
  else biasResult s2.hk.entry none (modHkEnt s2.hk.entry (fun h => { h with bad := true }) s2)

/-! ### Moves of the sequencer (R215-R219) -/

/-- Every source off (R235). -/
def sourcesOff (s : State) : State := { s with hk := { s.hk with src := [] } }

/-- Wait for the next pass; under TIMER and PWM the sources go off. -/
def toPassWait (s : State) : State :=
  let s1 := { s with hk := { s.hk with phase := .waitPass, passRun := false, entry := 0, rep := 0, tdac := none } }
  if passTrig (rd s) = 0 then s1 else sourcesOff s1

/-- Stop: SEQ_EN = 0 once no conversion runs. -/
def hkStop (s : State) : State :=
  sourcesOff { s with hk := { s.hk with phase := .off, passRun := false, entry := 0, rep := 0, tdac := none, stopDue := false } }

/-- A conversion has ended: the oscillator of the configuration in force is taken; the return to a restored crystal counts as a
change (R229, R417). -/
def takeXtal (s : State) : State :=
  { s with hk := { s.hk with
      onInt := oscInt (rd s) || s.pwr.hkxLost, change := s.hk.change || s.hk.xtalBack, xtalBack := false } }

/-- The entry in hand is over: what runs next is under the configuration in force, the oscillator chosen there is taken, and
the test DAC is disconnected (R25, R225, R229). -/
def convOver (s : State) : State :=
  let s1 := takeXtal s
  { s1 with hk := { s1.hk with
      held := none, tdac := none, gainWait := false
      pausePin := blankEn (rd s) && (s.hk.pinLevel != blankPol (rd s)) } }

/-- The sequencer stops; where SEQ_EN has been set again since, it waits to start a pass at entry 0 (R215). -/
def stopOrStart (s : State) : State :=
  let s1 := hkStop s
  if seqEn (rd s) then { s1 with hk := { s1.hk with phase := .waitPass, change := true } } else s1

/-- Nothing injected is left: the interrupted entry restarts, or at entry 0 where the new table ends before it; else the wait
(R219). A self-calibration that waits starts first (R220). -/
def resumeSeq (s : State) : State :=
  if s.hk.selfWait then { s with hk := { s.hk with phase := .waitPass } }
  else if ¬ seqEn (rd s) then hkStop { s with hk := { s.hk with resumeAt := none } }
  else match s.hk.resumeAt with
    | some p =>
      let q := if seqLast (rd s) < p.1 then (0, 0) else p
      { s with hk := { s.hk with entry := q.1, rep := q.2, resumeAt := none, phase := .toSwitch, change := true } }
    | none => toPassWait s

/-- What follows an injected conversion: the next of the queue, the interrupted entry, or the wait. Requests that came after
HK_SELFCAL wait for its end (R222). -/
def afterInject (s : State) : State :=
  let s1 := { s with hk := { s.hk with injCur := none } }
  match s.hk.inj with
  | i :: r =>
    if s.hk.selfWait && s.hk.selfBefore == 0 then resumeSeq s1
    else { s with hk := { s.hk with injCur := some i, inj := r, phase := .toSwitch, selfBefore := s.hk.selfBefore - 1 } }
  | [] => resumeSeq s1

/-- The next entry, or the end of the pass (R215). -/
def nextEntry (s0 : State) : State :=
  let s := convOver s0
  if s.hk.injCur.isSome then afterInject s
  else if s.hk.stopDue ∨ ¬ seqEn (rd s) then stopOrStart s
  else if seqLast (rd s) ≤ s.hk.entry then
    toPassWait { s with hk := { s.hk with passes := wrapAdd 32 s.hk.passes 1 } }
  else { s with hk := { s.hk with entry := s.hk.entry + 1, rep := 0, phase := .toSwitch } }

/-- A pass starts at entry 0. -/
def startPass (s : State) : State :=
  { s with hk := { s.hk with phase := .toSwitch, passRun := true, entry := 0, rep := 0 } }

/-- Ready flag of a reference (R209). -/
def refReady (s : State) (r : Nat) : Bool := if r = 0 then s.hk.refInt else if r = 1 then s.hk.refExt else s.hk.refSup

/-- The conversion's change test against the last one (R216). -/
def setupOf (e : EntW) (g : Nat) : HkSetup := ⟨ePos e, if eInternal e then 63 else eNeg e, g, eRef e, eExc e, eFilter e, eTdac e⟩

/-- Results flagged SETTLING after a change. -/
def settleResults (filter g delay : Nat) : Nat :=
  if filter = 1 then 2 else if filter = 2 then 3 else if delay < (if g ≤ 4 then 200 else 800) then 1 else 0

/-- Begin a conversion: take a change into SETTLING and EXC_CHG. The settling time that an automatic gain change inserts is
long enough. -/
def beginConv (s : State) : State :=
  let e := s.hk.curEnt
  let su := setupOf e s.hk.curGain
  let chg := s.hk.change || decide (s.hk.prev ≠ some su)
  let n := settleResults (eFilter e) s.hk.curGain (if s.hk.gainWait then 800 else eDelay e)
  let s1 := { s with hk := { s.hk with phase := .converting, paused := 0, prev := some su, change := false, gainWait := false } }
  if chg then { s1 with hk := { s1.hk with settle := n, excLeft := if s.hk.excNew then max 1 n else 0 } } else s1

/-- PWM of the axis a wait names runs (R215, R277). -/
def hkPwmRuns (s : State) : Bool := pwmRuns s (pwmAxis (hkRd s))

/-- From the ready reference to the conversion: wait for PWM where the entry asks for it. -/
def pwmOrConv (s : State) : State :=
  let e := s.hk.curEnt
  if eWaitPwm e && (s.hk.injCur.isSome || s.hk.rep == 0 || eFilter e == 0) then
    if hkPwmRuns s then { s with hk := { s.hk with phase := .pwmWait } }
    else beginConv { s with hk := { s.hk with pwmAbsent := true } }
  else beginConv s

/-- A PWM wait whose axis drives no PWM any more is satisfied (R215, R277). -/
def pwmGone (s : State) : State := if s.hk.phase == .pwmWait && !hkPwmRuns s then pwmOrConv s else s

/-- The delay is over: the reference next (R209). -/
def refOrPwm (s : State) : State :=
  if refReady s (eRef s.hk.curEnt) then pwmOrConv s else { s with hk := { s.hk with phase := .refWait } }

/-- The entry in hand uses a gain that is being recalibrated (R223). -/
def gainBusy (s : State) (g : Nat) : Bool := s.hk.bgBusy && s.hk.bgStage == 1 && s.hk.bgGain == g

/-- STALE results for `n` conversions. -/
def staleTimes : Nat → State → State
  | 0, s => s
  | n + 1, s => staleTimes n (hkStale false false false s)

/-- Repeats of what is in hand: an injected request runs once (R218). -/
def repeatsOf (s : State) : Nat := if s.hk.injCur.isSome then 1 else eRepeat s.hk.curEnt

/-- Repeats of what is in hand that come before its present one. -/
def repOf (s : State) : Nat := if s.hk.injCur.isSome then 0 else s.hk.rep

/-- The next repeat of the entry, or the next entry; after a boundary the sequencer goes on with the next index of the new
table (R215). `gainNew`: a new gain inserts its settling time. -/
def nextRepeat (gainNew : Bool) (s : State) : State :=
  if repeatsOf s ≤ repOf s + 1 ∨ s.hk.held.isSome ∨ s.hk.stopDue then nextEntry s
  else if ¬ seqEn (rd s) ∧ s.hk.injCur.isNone then nextEntry s
  else
    let s0 := takeXtal s
    let s1 := { s0 with hk := { s0.hk with rep := s.hk.rep + 1 } }
    if gainBusy s1 s1.hk.curGain then nextEntry (staleTimes (repeatsOf s1 - s1.hk.rep) s1)
    else if gainNew then { s1 with hk := { s1.hk with phase := .delay, gainWait := true } }
    else pwmOrConv s1

/-- Queue an injected request (R217). -/
def hkInject (i : HkInj) (s : State) : State := { s with hk := { s.hk with inj := s.hk.inj ++ [i] } }

/-- Requests in the queue, the one in service among them. -/
def injCount (s : State) : Nat := s.hk.inj.length + b2n s.hk.injCur.isSome

/-- Die sensor code of a group's temperature (R178, R200). -/
def groupSensor (g : Nat) : Nat := 32 + g

/-- A supervisor read of a group's die temperature: gain 1, incremental, 20.000 ms (R182). -/
def tempRead (g : Nat) : HkInj :=
  { w0 := wd (put (groupSensor g) 6 26 + put 63 6 20 + put 7 3 10 + put 2 2 4), w1 := wd (put 122880 20 12),
    w2 := wd (put 1000 16 16 + put 1 8 8), tag := none, grp := g }

/-- A group's read waits or runs. -/
def readPending (s : State) (g : Nat) : Bool :=
  (s.hk.inj.any fun i => i.tag.isNone && i.grp == g) ||
    (match s.hk.injCur with | some i => i.tag.isNone && i.grp == g | none => false)

/-- Something is being converted, waited for or delayed that an injected request aborts. -/
def seqBusy (p : HkPhase) : Bool :=
  match p with
  | .toSwitch | .burnout | .delay | .refWait | .pwmWait | .converting => true
  | .off | .waitPass | .selfcal => false

/-- The modulator is paused (R212, R213). -/
def hkPaused (s : State) : Bool := s.hk.pauseAmber || s.hk.pausePin

/-- Abandon what runs so that the entry restarts later (R219); an abandoned conversion makes the next one a change (R216). An
entry of the table before a boundary restarts as the next index of the new one. -/
def interruptSeq (s : State) : State :=
  if seqBusy s.hk.phase && s.hk.injCur.isNone then
    let at_ := if s.hk.held.isSome ∧ s.hk.phase ≠ .toSwitch then (s.hk.entry + 1, 0) else (s.hk.entry, s.hk.rep)
    convOver { s with hk := { s.hk with
      resumeAt := if s.hk.stopDue then none else some at_, stopDue := false, change := s.hk.change || s.hk.phase == .converting } }
  else s

/-- D18 powers up (R209, R221, R248): present gains at their clamped GAIN. -/
def hkPowerUp (s : State) : State :=
  let h := { Hk.reset with
    buf := s.hk.buf, rd := s.hk.rd, wr := s.hk.wr, unread := s.hk.unread, bufOvr := s.hk.bufOvr,
    outQ := s.hk.outQ, pinLevel := s.hk.pinLevel, onInt := oscInt (rd s) || s.pwr.hkxLost,
    pausePin := blankEn (rd s) && (s.hk.pinLevel != blankPol (rd s)),
    phase := if seqEn (rd s) then .waitPass else .off }
  each (List.range 64) (fun n s => modHkEnt n (fun e => { e with gain := clampGain (tableEnt s n) (eGain (tableEnt s n)) }) s)
    { s with hk := h }

/-- D18 goes off (R420): everything but the buffer and its indices is lost. -/
def hkPowerDown (s : State) : State :=
  { s with hk := { Hk.reset with
    buf := s.hk.buf, rd := s.hk.rd, wr := s.hk.wr, unread := s.hk.unread,
    bufOvr := s.hk.bufOvr, pinLevel := s.hk.pinLevel } }

/-- The entry fields whose change resets a present gain; automatic ranging that is switched on begins at the clamped GAIN
(R204). -/
def arFields (w : Word) : Bool × Nat × Nat × Nat := (bit w 16, fld w 19 17, fld w 15 13, fld w 12 10)

/-- A new table's present gains (R204). -/
def hkSwapGains (r0 : Rd) (s : State) : State :=
  each (List.range 64) (fun n s =>
    let e1 := tableEnt s n
    if arFields (r0 0x61 (2 + 3 * n)) = arFields e1.1 then s
    else modHkEnt n (fun h => { h with gain := clampGain e1 (eGain e1), up := 0 }) s) s

/-- An entry is in hand: it has been switched to and its last conversion has not ended. -/
def entInHand (p : HkPhase) : Bool := seqBusy p && p != .toSwitch

/-- The entry in hand keeps the HKC and EXC words it began with; else the blanking pin's level and the oscillator are those of
the new words at once (R25, R213, R229). -/
def hkSwapPins (r0 : Rd) (s : State) : State :=
  let s1 :=
    if entInHand s.hk.phase then
      (if s.hk.held.isSome then s
       else { s with hk := { s.hk with held := some [(0x60, (List.range 5).map (r0 0x60)), (0x62, (List.range 57).map (r0 0x62))] } })
    else { s with hk := { s.hk with pausePin := blankEn (rd s) && (s.hk.pinLevel != blankPol (rd s)) } }
  if s.hk.phase = .converting then s1 else { s1 with hk := { s1.hk with onInt := oscInt (rd s) || s.pwr.hkxLost } }

/-- SEQ_EN set starts the waiting for a pass at entry 0; cleared stops the sequencer once no conversion runs (R215). -/
def hkSwapRun (was now : Bool) (s : State) : State :=
  if now && !was then
    if s.hk.phase = .off then { s with hk := { s.hk with phase := .waitPass, entry := 0, rep := 0, change := true } }
    else { s with hk := { s.hk with change := true } }
  else if was && !now then
    if s.hk.injCur.isSome ∨ s.hk.phase = .selfcal then { s with hk := { s.hk with resumeAt := none, passRun := false } }
    else if s.hk.phase = .converting then { s with hk := { s.hk with stopDue := true } }
    else convOver (hkStop s)
  else s

/-- Bias outputs take the new words (R247, R248). -/
def hkSwapBias (s : State) : State :=
  each (List.range 4) (fun o s =>
    let h := hkEnt s (biasSrc (rd s) o)
    biasMove o (if biasComp (rd s) o && h.has && !h.bad && !(s.hk.biasHold.contains o) then
      { s with hk := { s.hk with biasTgt := tset 0 s.hk.biasTgt o (biasTarget (rd s) o h.eng) } } else s)) s

/-- The swap of the HKD blocks at the token (R215, R204, R213, R248). `r0` is the old view. -/
def hkSwap (r0 : Rd) (s : State) : State :=
  if domUp s 18 then hkSwapBias (hkSwapRun (seqEn r0) (seqEn (rd s)) (hkSwapPins r0 (hkSwapGains r0 s))) else s

end Sys2Proof.Machine
end

