-- ==== Sys2Proof/Machine/Shots.lean ====
section
/-!
DEFINITION. The intervals a shot opens on its channels and its start input: pre-fire gate (R38), listening
window (R39), start acceptance (R93). Times in SMP cycles; F and what is measured from it carry FINE, so they are
compared in its unit of 25 ps, an eighth of a cycle.
-/

namespace Sys2Proof.Machine

/-- SMP cycles of a time in ns. -/
def ns (n : Nat) : Nat := 5 * n

/-- Cycle `t` of a shot's own times, FINE added, in 25 ps: its F, its edges, the end of its listening window. -/
def shotTime (x : Shot) (t : Nat) : Nat := 8 * t + x.fine

/-- F in 25 ps (R91, R92). -/
def fireTime (x : Shot) : Nat := shotTime x x.fcyc

/-- Time `t` from F, 25 ps. -/
def fromFire (x : Shot) (t : Nat) : Int := 8 * (t : Int) - fireTime x

/-- First cell of a window from F, in u of 0.78125 ps: 25 ps are 32 u (R123). -/
def windowStart (x : Shot) (w : Win) : Int := 32 * fromFire x w.first

/-- Time in a shot's pre-fire gate, F - 120 ns to F - 10 ns (R38). -/
def inGate (x : Shot) (t : Nat) : Bool := decide (fireTime x ≤ 8 * (t + ns 120)) && decide (8 * (t + ns 10) ≤ fireTime x)

/-- Time in a shot's listening window (R39). -/
def inListen (x : Shot) (t : Nat) : Bool := decide (fireTime x ≤ 8 * t) && decide (8 * t ≤ shotTime x x.listenEnd)

/-- Ends of listening windows in whole ns: the first at or after. -/
def listenEndNs (x : Shot) : Nat := (shotTime x x.listenEnd + 39) / 40

/-- The listening window has ended by cycle `t`. -/
def listenOver (x : Shot) (t : Nat) : Bool := decide (shotTime x x.listenEnd ≤ 8 * t)

/-- The slot that holds the time F - `n` ns (R63). -/
def slotBefore (x : Shot) (n : Nat) : Nat := (fireTime x - 8 * ns n) / 128

/-- Some edge of a shot stands or may still be driven. -/
def firing (x : Shot) : Bool := x.fate.any (· != 2)

/-- Shots in flight whose emitter serves an input: by group for a channel, by SIN for a start input. -/
def servesInput (x : Shot) (c : Nat) : Bool := if c < 256 then x.group.contains c else x.sin + 256 == c

/-- A listening window open on channel `c` at `t`. -/
def listening (s : State) (c t : Nat) : Bool := s.fire.shots.any fun x => servesInput x c && inListen x t

/-- A pre-fire gate open on channel `c` at `t`. -/
def gated (s : State) (c t : Nat) : Bool := s.fire.shots.any fun x => servesInput x c && inGate x t

/-- Edge numbers (0 for edge 1) of a shot whose acceptance interval holds `t`. -/
def acceptEdges (r : Rd) (x : Shot) (t : Nat) : List Nat :=
  (List.range x.edges.length).filter fun j =>
    x.fate.getD j 2 != 2 && decide (shotTime x (x.edges.getD j 0) ≤ 8 * (t + ns 2)) &&
      decide (8 * t ≤ shotTime x (x.edges.getD j 0 + ns (sinWin r)))

/-- An acceptance interval open on start input `i` at `t` (R93). -/
def accepting (s : State) (i t : Nat) : Bool := s.fire.shots.any fun x => x.sin == i && !(acceptEdges (rd s) x t).isEmpty

/-- Amber on an input at `t`: a shot's blanking covers it (R48). -/
def amberAt (s : State) (c t : Nat) : Bool := (front s c).blankedBy.any fun p => decide (8 * t < p.2)

/-- Amber on an input now. -/
def amber (s : State) (c : Nat) : Bool := amberAt s c s.sys.cyc

/-- A shot blanks an input still. -/
def blankedByShot (x : Front) (sid : Nat) : Bool := x.blankedBy.any fun p => p.1 == sid

/-- Comparator suppressed by threshold code 0 or a mask (R43, R51). -/
def suppressed (s : State) (c : Nat) : Bool :=
  (front s c).thr == 0 || (decide (c < 256) && (chMasked (rd s) c || (front s c).stuckMask || (front s c).maskHeld))

end Sys2Proof.Machine
end

