-- ==== Sys2Proof/WellFormed.lean ====
section
/-!
DEFINITION. Which commands name objects the device has (R4) and packets the format can carry (R310).
A meaning answers the fault noSuchObject on a command that names an object beyond R4.
-/

namespace Sys2Proof

/-- A request whose LEN the header can carry (R310). -/
def Req.wf (q : Req) : Bool := decide (q.payload.length ≤ 1024)

/-- A local channel or, from 256, a start input (R4). -/
def isInput (c : Nat) : Bool := decide (c < 260)
def isChan (c : Nat) : Bool := decide (c < 256)
def isEmitter (e : Nat) : Bool := decide (e < 16)
def isEngine (k : Nat) : Bool := decide (k < 64)
def isLane (k : Nat) : Bool := decide (k < 8)
def isAxis (x : Nat) : Bool := decide (x < 2)
def isDevice (k : Nat) : Bool := decide (k < 8)
/-- Banks 0-7, and 8 for the start inputs as calibration group, converter or sampler (R179). -/
def isGroup (g : Nat) : Bool := decide (g < 9)
def isPin4 (p : Nat) : Bool := decide (p < 4)
def isDomain (d : Nat) : Bool := decide (d < 20)
/-- Values of a 4-bit VS field (R345). -/
def isStream (v : Nat) : Bool := decide (v < 16)

/-- Offsets of the flash window of 64 MiB (R303). -/
def isOffset (o : Nat) : Bool := decide (o < 2 ^ 26)
/-- Instances of a fault source (R449). -/
def instancesOf (src : Nat) : Nat :=
  if src = 1 then 64 else if src = 2 then 8 else if src = 3 then 256 else if src = 4 then 2
  else if src = 0x10 then 8 else if src = 0x11 then 260 else if src = 0x12 then 3
  else if (5 ≤ src ∧ src ≤ 9) ∨ src = 0x13 then 1 else 0

/-- The command names only objects the device has. -/
def Instr.wf : Instr → Bool
  | .nop q | .ident q | .getStatus q | .setParam q | .getParam q | .commit q | .discard q | .readReg q
  | .writeReg q | .irqPendClear q | .hkbufRdWrite q | .telemetryListWrite q | .state q | .power q | .laneState q
  | .timeSet q | .calStart q | .calStatus q | .hkSelfcal q | .hkInject q | .steerMode q | .steerMove q
  | .archMount q | .archStart q | .archStop q | .archStatus q | .updBegin q | .updData q | .updEnd q _
  | .updActivate q | .updConfirm q | .updStatus q | .recoverSelect q | .faultRead q | .faultClear q
  | .cascEnum q | .unknownOpcode _ q => q.wf
  | .resetnRelease _ k _ _ => isDevice k
  | .protectiveFault src i _ => decide (i < instancesOf src)
  | .faultClassify src i _ => decide (1 ≤ src) && decide (src ≤ 9) && decide (i < instancesOf src)
  | .firePulseEnd e => isEmitter e
  | .rangeApplyIdle c | .saturationAssert c _ | .saturationRecovery c | .comparatorRearm c => isInput c
  | .trigger c _ | .zoneEventService c | .stuckHighTimeout c | .finishTaskCreate _ c => isChan c
  | .stackedWindowEnter c i => isChan c && isPin4 i
  | .calibrationParkRequest c _ _ _ | .ringRelinkRetire c _ => isInput c
  | .amberEnd _ p => decide (p.1 < 8)
  | .zoneHoldExpiry p | .startTrigger p _ | .excMonitorDeclare p _ => isPin4 p
  | .refrdyChange r _ => decide (r < 3)
  | .samplerFillDone b | .windowHandoff b | .calTempReadDone b | .calPhaseComplete b | .calPhaseTimeout b | .ditherFreePulse b
  | .ditherGatedPulse b => isGroup b
  | .gainTestStep b _ => decide (b < 8)
  | .bootHeaderErase k => decide (k < 2)
  | .flashEraseRegister o _ => isOffset o && decide (o % 4096 = 0)
  | .windowReadSuspend o => isOffset o
  | .engineTakeTask k | .steal k | .windowTaskDone k | .finishTaskEnter k | .finishTaskDone k | .eccSingle k _
  | .eccDouble k _ _ | .engineReloadDone k => isEngine k
  | .encoderIndex p => isAxis p.1
  | .encoderEdge x _ _ | .ssiFrameComplete x _ _ | .cmpReload x | .loopSample x
  | .driverFault x | .hkPwmEdge x _ => isAxis x
  | .laneLockLoss k | .invalidBlock k | .train k _ | .align k _ | .laneErr k _ | .cargoFrameReceive k _
  | .txSleepEntry k | .rxDeepWake k | .blockLockLost k => isLane k
  | .partFrameFlush v | .credit v _ => isStream v
  | .fault k _ _ | .loss k _ | .ack k _ _ => isDevice k
  | .pkt a b _ _ _ => isDevice a && isDevice b
  | .domainUp d => isDomain d
  | .quarterDrainEnd q => isPin4 q
  | _ => true

end Sys2Proof
end

