-- ==== Sys2Proof/Machine/Safe.lean ====
section
/-!
DEFINITION. Protective faults: the latched fire inhibit and the entry to SAFE, with what each unit does at
it (R101, R102, R275, R402, R483).
-/

namespace Sys2Proof.Machine

/-- Instances of a fault source (R449). -/
def fltRange (src : Nat) : Nat := instancesOf src

/-- The states a protective fault takes into SAFE (R31). -/
def safeable (d : DevState) : Bool :=
  match d with
  | .idle | .armed | .run | .hold => true
  | .boot | .safe | .recovery => false

/-- Put a message on the ring. -/
def ringSend (m : RingMsg) (s : State) : State := { s with casc := { s.casc with out := s.casc.out ++ [m] } }

/-- A mode change that an action discards is answered, with a status no rule states (log entry 69). -/
def modeDropped (x : Nat) (s : State) : State :=
  match (axis s x).pendMode with
  | some m =>
    (match m.req with
      | some q => let f := takeFree 4 s; replyTo 0x40 q f.1 [] f.2
      | none => s)
  | none => s

/-- An axis takes FAULT_ACT at SAFE entry. -/
def axisSafe (x : Nat) (s : State) : State :=
  if (axis s x).mode = .off ∨ (axis s x).faultActive then s else modAxis x (axSafe (rd s) x) (modeDropped x s)

/-- Axes take FAULT_ACT at SAFE entry (R275); an HKC PWM wait on an axis that drives no PWM any more is over (R277). -/
def axesSafe (s : State) : State := if domUp s 19 then pwmGone (axisSafe 1 (axisSafe 0 s)) else s

/-- Stacks that satisfy `p` are discarded; a claiming shot waits for them no longer (R171, R172). -/
def discardStacks (p : Stack → Bool) (s : State) : State :=
  let gone := s.stk.openStacks.filter p
  each gone (fun k s => match k.claim with
      | some m => modShot m (fun x => { x with claimed := x.claimed - 1 }) s
      | none => s)
    { s with stk := { s.stk with openStacks := s.stk.openStacks.filter (fun k => !p k), stkDisc := satAdd 16 s.stk.stkDisc gone.length } }

/-- Frames end without a boundary; a pending STATE change, the velocity inhibit and the stacks without a claiming shot go
(R171, R337, R485). -/
def dropFrames (s0 : State) : State :=
  let s := discardStacks (fun k => k.claim.isNone) s0
  { s with
    sys := { s.sys with statePend := false, stateTarget := 0 }
    fire := { s.fire with started := false, gap := false, ending := none, sched := [], velInh := false, belowFor := 0 } }

/-- A shot none of whose sub-pulses is driven: no stack counts it, no gate or park of it is asked for (R88, R171). -/
def dropShot (x : Shot) (s : State) : State :=
  { s with
    fire := { s.fire with shots := s.fire.shots.filter fun y => y.sid != x.sid }
    samp := { s.samp with
      gateReqs := s.samp.gateReqs.filter fun q => q.2.2.2 != x.sid
      calReqs := s.samp.calReqs.filter fun q => q.2.2 != some x.sid }
    hk := { s.hk with notices := remNat s.hk.notices x.sid, amb := remNat s.hk.amb x.sid }
    stk := { s.stk with openStacks := s.stk.openStacks.map fun k =>
      { k with
        count := if k.owed.contains x.sid then k.count - 1 else k.count
        owed := remNat k.owed x.sid
        claim := if k.claim = some x.sid then none else k.claim } } }

/-- End of a shot's amber interval on channel `c`, 25 ps of the present count: NEAR_BLANK after its last driven edge (R48). -/
def amberEndOf (r : Rd) (x : Shot) (c : Nat) : Nat :=
  shotTime x ((if c < 256 then nearBlank r (c / 32) else 0) +
    ((List.range x.edges.length).foldl (fun m j => if x.fate.getD j 2 = 2 then m else max m (x.edges.getD j 0)) x.fcyc))

/-- The amber intervals of a shot, as its edges now stand. -/
def amberAgain (x : Shot) (s : State) : State :=
  each x.group (fun c => modFront c fun f =>
    { f with blankedBy := f.blankedBy.map fun p => if p.1 = x.sid then (p.1, amberEndOf (rdAt s x.epoch) x c) else p }) s

/-- Edges not yet driven when an inhibit is latched are not driven (R88): WITHHELD or SUB_SKIP. `breach`: by the velocity
inhibit, which counts the shot in the frame header and as an event too (R100, R155). -/
def cancelEdges (breach : Bool) (s : State) : State :=
  each s.fire.shots (fun x s =>
    let n := (x.fate.filter (· == 0)).length
    if n = 0 then s
    else if x.fate.contains 1 then
      let cut := fun (y : Shot) => { y with fate := y.fate.map fun f => if f = 0 then 2 else f }
      amberAgain (cut x) (modShot x.sid cut { s with fire := { s.fire with subSkip := satAdd 16 s.fire.subSkip n } })
    else
      let s1 := modEmit x.em (fun e => { e with withheld := satAdd 8 e.withheld 1 }) (dropShot x s)
      if breach then raiseOpen 6 0 (modHdr (fun h => { h with withheld := satAdd 32 h.withheld 1 }) s1) else s1) s

/-- Fire is inhibited in hardware, in every state (R483). -/
def latchInhibit (s : State) : State := cancelEdges false { s with fire := { s.fire with faultInh := true } }

/-- Entry to SAFE from `src`: `share` sends FAULT on the ring (R402). From any other state than IDLE,
ARMED, RUN and HOLD only the inhibit is latched. -/
def enterSafe (src inst detail : Nat) (share : Bool) (s : State) : State :=
  let s1 := latchInhibit s
  if safeable (opState s) then
    let s2 := axesSafe (dropFrames (setOp .safe s1))
    let s3 := logWrite src 3 inst detail s2
    if share && s.sys.cascRole && faultShare (rd s) then ringSend (.fault (devIdx s) src) s3 else s3
  else s1

/-- A protective fault of sources 0x04, 0x06, 0x07, 0x08: one counted event, and SAFE (R101, R449). -/
def protective (src inst detail : Nat) (s : State) : State :=
  enterSafe src inst detail true (raiseEvent src inst detail s)

/-- A steering fault is declared on an axis that is not OFF (R274, R275): causes 1 following error,
2 driver fault, 3 encoder loss. -/
def declareAxis (x cause : Nat) (s : State) : State :=
  protective 4 x cause (pwmGone (modAxis x (fun a =>
    { axAct (actFor cause (faultAct (rd s) x)) { a with pendMode := none } with
      cause := cause
      feCnt := if cause = 1 then satAdd 8 a.feCnt 1 else a.feCnt
      fltCnt := if cause = 2 then satAdd 8 a.fltCnt 1 else a.fltCnt }) (modeDropped x s)))

/-- An encoder error: in OFF counted and shown only; else counted under R255 and R258 and declared. -/
def encoderError (x : Nat) (counted : Bool) (s : State) : State :=
  if (axis s x).mode = .off then
    modAxis x (fun a => { a with encErr := satAdd 16 a.encErr 1, cause := 3 }) s
  else
    declareAxis x 3 (if counted then modAxis x (fun a => { a with encErr := satAdd 16 a.encErr 1 }) s else s)

/-- PROTECTIVE_FAULT: the source's event latches the inhibit and enters SAFE. A ring loss is protective on
a slave only; a remote fault (0x10) is logged and not counted (R449). -/
def execProtectiveFault (src inst detail : Nat) (s : State) : Out :=
  if fltRange src ≤ inst then .fault .noSuchObject
  else if src = 4 then .next (if (axis s inst).mode = .off ∨ ¬ domUp s 19 then s else declareAxis inst (clampN 1 3 detail) s)
  else if src = 6 ∨ src = 8 then .next (protective src inst detail s)
  else if src = 7 then .next (if isSlave s then protective 7 inst detail s else raiseEvent 7 inst detail s)
  else if src = 0x10 then .next (enterSafe src inst detail false s)
  else .next s

/-! ### Commands of the steering engine -/

/-- One synchronised sample of ENCA and ENCB; a change of both accepted levels is an illegal transition (R254, R255). -/
def encSample (x : Nat) (v : Bool × Bool) (s : State) : State :=
  let a0 := axis s x
  let a := axFilter (encFilt (rd s) x) v a0
  if badStep a0 a then encoderError x true (modAxis x (fun _ => a) s) else modAxis x (fun _ => axCount (encDir (rd s) x) a0 a) s

/-- ENCODER_EDGE: consecutive STR samples of ENCA and of ENCB. -/
def execEncoderEdge (x : Nat) (a b : List Bool) (s : State) : Out :=
  guardObj (decide (x < 2)) (if domUp s 19 && !encSsi (rd s) x then each (a.zip b) (encSample x) s else s)

/-- An accepted index: Z_REF at a first index, the check of R256 at a later one. -/
def encIndex (x : Nat) (s : State) : State :=
  let a := axis s x
  if zQual (rd s) x && !(filtLevel a.encA && filtLevel a.encB) then s
  else if a.idxFirst then modAxis x (fun a => { a with zRef := a.p, homed := true, idxFirst := false }) s
  else if indexTol (rd s) x ≠ 0 ∧ indexTol (rd s) x < (indexDev (cprOf (rd s) x) a.p a.zRef).natAbs then
    encoderError x false s
  else s

/-- One synchronised sample of ENCZ: a rising edge that the filter accepts is an index (R254, R256). -/
def idxSample (x : Nat) (v : Bool) (s : State) : State :=
  let f := (axis s x).encZ
  let g := filtSample (encFilt (rd s) x) v f
  let s1 := modAxis x (fun a => { a with encZ := g }) s
  if f.level = some false ∧ g.level = some true then encIndex x s1 else s1

/-- ENCODER_INDEX: consecutive STR samples of ENCZ of the axis `x.1`. -/
def execEncoderIndex (x : Nat × List Bool) (s : State) : Out :=
  guardObj (decide (x.1 < 2)) (if domUp s 19 && !encSsi (rd s) x.1 then each x.2 (idxSample x.1) s else s)

/-- SSI_FRAME_COMPLETE: the reading enters P; a jump or a constant line is an encoder loss (R258). -/
def execSsiFrameComplete (x reading : Nat) (const : Bool) (s : State) : Out :=
  guardObj (decide (x < 2)) <|
    if domUp s 19 && encSsi (rd s) x then
      let bits := ssiBits (rd s) x
      let v := if ssiGray (rd s) x then ofGray bits (reading % 2 ^ bits) else reading % 2 ^ bits
      let bad := ssiLoss bits v const (axis s x)
      let s1 := modAxis x (axSsi bits v s.sys.cyc) s
      if bad then encoderError x true s1 else s1
    else s

/-- CMP_RELOAD: the next reload point of the axis, PER STR cycles after the last (R262, R264). -/
def execCmpReload (x : Nat) (s : State) : Out :=
  guardObj (decide (x < 2))
    (if domUp s 19 && devRuns s then modAxis x (axReload (rd s) x) (advTo (reloadNext (rd s) x (axis s x)) s) else s)

/-- DRIVER_FAULT: FLTn low for 30 ns on an axis that is not OFF (R274). -/
def execDriverFault (x : Nat) (s : State) : Out :=
  guardObj (decide (x < 2)) (if domUp s 19 ∧ (axis s x).mode ≠ .off then declareAxis x 2 s else s)

end Sys2Proof.Machine
end

