-- ==== Sys2Proof/Machine/Calib.lean ====
section
/-!
DEFINITION. Return-path calibration (R177-R199): corrections in force, runs and their phases, segment
retirement, resistor selection, gradual application and the calls on the store.
-/

namespace Sys2Proof.Machine

/-- Power domain of a group (R179). -/
def grpDom (g : Nat) : Nat := if g < 8 then 1 + g else 9

/-- The parameter view of a run: RCAL as taken when the run took hold (R181). -/
def runRd (s : State) (g : Nat) : Rd := fun id off =>
  if id = 0x50 ∧ 0 < off ∧ (calGrp s g).rcal ≠ [] then (calGrp s g).rcal.getD (off - 1) 0 else rd s id off

/-- Segments in service of a channel (R75). -/
def inService (s : State) (c : Nat) : List Nat :=
  (List.range 84).filter fun k => !(sampCh s c).redun.contains k && !(sampCh s c).retired.contains k

/-! ### Corrections in force (R123, R192, R193) -/

/-- Temperature of a group, Q16.16. -/
def grpTemp (s : State) (g : Nat) : Int := (calGrp s g).temp.getD (Config.unknownTemp g)

/-- A quantity of a channel's sets at temperature `t` (Q16.16), rounded to its LSB. -/
def setValue (x : CalCh) (f : TSet → Int) (t : Int) : Int :=
  match x.single with
  | some v => f v
  | none => interp ((sortBy TSet.t x.sets).map fun v => (v.t * 8192, f v)) t

/-- Gain of set field `a`, range 3 being the reference. -/
def setG (a : Nat) (v : TSet) : Nat := if a = 0 then v.g0 else if a = 1 then v.g1 else if a = 2 then v.g2 else 0x4000

/-- Corrections for work of epoch `ep`. -/
def calChAt (s : State) (ep c : Nat) : CalCh :=
  match s.cal.oldChs.find? fun p => p.1 == ep with
  | some p => tget CalCh.reset p.2 c
  | none => calCh s c

/-- A cell's PED by its channel's values, without an offset: PED_MEAN at the last evaluation plus the cell's shape. -/
def pedSet (x : CalCh) (seg cell : Nat) : Int := x.apPed - x.slP.o + tget 0 x.shape (16 * seg + cell)

/-- Applied PED of a cell, 1/8 code: each measured cell carries one slew offset of its own (R193); a segment without measured
tables uses PED_MEAN (R184). -/
def pedOf (x : CalCh) (seg cell : Nat) : Int :=
  if x.pedMeas.contains seg then pedSet x seg cell + (tget Slew.zero x.slShape (16 * seg + cell)).o else x.apPed

/-- Applied time offset of a cell, u. -/
def deltaOf (x : CalCh) (seg cell : Nat) : Int :=
  tget 0 x.delta (16 * seg + cell) + (tget Slew.zero x.slDelta (16 * seg + cell)).o

/-- Applied gain of range `a`, Q2.14. -/
def gainOf (x : CalCh) (a : Nat) : Nat := if a = 0 then x.apG0 else if a = 1 then x.apG1 else if a = 2 then x.apG2 else 0x4000

/-- A segment in service lacks a measured PED or width (R184). -/
def unmeasured (s : State) (c : Nat) : Bool :=
  (inService s c).any fun k => !(calCh s c).pedMeas.contains k || !(calCh s c).widthMeas.contains k

/-- The held state of R184 as the next boundary sets it. -/
def heldNext (s : State) (c : Nat) : Bool :=
  (calGrp s (groupOf c)).hold || unmeasured s c || (calCh s c).needGain || (s.cal.defaults && (calCh s c).defWait)

/-- One step of a slew toward zero (R193). -/
def slewStep (frames step : Nat) (v : Slew) : Slew :=
  if v.o = 0 ∧ frames ≤ v.j + 1 then Slew.zero
  else
    let j := v.j + 1
    let tgt := if j ≤ frames then roundAway (v.o0 * (frames - j : Nat)) frames else 0
    let o := v.o + clampI (-(step : Int)) step (tgt - v.o)
    if o = 0 ∧ frames ≤ j then Slew.zero else ⟨v.o0, o, j⟩

/-- Every entry of a slew table takes a step. -/
def slewTab (frames step : Nat) (t : Tab Slew) : Tab Slew :=
  (t.map fun p => (p.1, slewStep frames step p.2)).filter fun p => p.2 != Slew.zero

/-- Slews of a channel step once; `go` is false while frames do not run. -/
def slewChan (r : Rd) (go : Bool) (x : CalCh) : CalCh :=
  if ¬ go then x
  else
    let n := slewFrames r
    { x with
      slD := slewStep n (stepD r) x.slD
      slG0 := slewStep n (stepG r) x.slG0
      slG1 := slewStep n (stepG r) x.slG1
      slG2 := slewStep n (stepG r) x.slG2
      slP := slewStep n (stepP r) x.slP
      slShape := slewTab n (stepP r) x.slShape
      slDelta := slewTab n (stepW r) x.slDelta }

/-- Applied values at temperature `t`: set value plus slew offset. -/
def evalChan (t : Int) (x : CalCh) : CalCh :=
  { x with
    apD := setValue x TSet.d t + x.slD.o
    apG0 := (setValue x (fun v => (setG 0 v : Int)) t + x.slG0.o).toNat
    apG1 := (setValue x (fun v => (setG 1 v : Int)) t + x.slG1.o).toNat
    apG2 := (setValue x (fun v => (setG 2 v : Int)) t + x.slG2.o).toNat
    apPed := setValue x (fun v => (v.ped : Int)) t + x.slP.o }

/-! ### Runs (R179-R182) -/

/-- A run of group `g` is in progress. -/
def grpRunning (s : State) (g : Nat) : Bool := (calGrp s g).phase != 0

/-- A group's run waits for a temperature read that is not queued. -/
def readDue (s : State) (g : Nat) : Bool :=
  let x := calGrp s g
  ((x.phase == 1 && x.tStart.isNone) || (x.ending && x.tEnd.isNone)) && x.readRes == 0 && !readPending s g

/-- Reads that are due join the injected queue where it has a place (R182, R217). -/
def fillReads (s : State) : State :=
  each (List.range 9) (fun g s =>
    if domUp s 18 && readDue s g && decide (injCount s < 4) then hkInject (tempRead g) s else s) s

/-- Phases a run of a group carries out: group 8 has no GAIN phase (R181). -/
def grpPhases (g m : Nat) : Nat := if g = 8 then m &&& 0xB else m

/-- Schedule a run (CAL_RUN_START). -/
def startRun (g m : Nat) (cmd : Bool) (s : State) : State :=
  fillReads (modCalGrp g (fun x =>
    { x with phase := 1, phases := grpPhases g m, tStart := none, tEnd := none, ending := false, hold := false, cmd := cmd,
             tempHold := false, noTemp := false, readRes := 0, armed := false, shots := 0, parkSlot := none }) s)

/-- A cause of an automatic run (R179); a cause during a run starts nothing. -/
def autoRun (g m : Nat) (s : State) : State :=
  if autoEn (rd s) && calBankEn (rd s) g && domUp s (grpDom g) && !grpRunning s g then startRun g m false s else s

/-- The temperature test of R179 on the group's latest temperature. -/
def tempTest (g : Nat) (s : State) : State :=
  match (calGrp s g).temp with
  | none => s
  | some t => if deltaT (rd s) * 16384 < (t - (calGrp s g).tLast * 8192).natAbs then autoRun g (autoPhases (rd s)) s else s

/-! ### Phases (R181, R186-R191) -/

/-- Phase codes 2 PED, 3 WIDTH, 4 GAIN, 5 ZERO selected by a mask, from `n` up; 0 when none is left. -/
def nextPhase (m n : Nat) : Nat :=
  if n ≤ 2 ∧ m.testBit 0 then 2 else if n ≤ 3 ∧ m.testBit 1 then 3 else if n ≤ 4 ∧ m.testBit 2 then 4
  else if n ≤ 5 ∧ m.testBit 3 then 5 else 0

/-- Hits of a segment in its 16 cells. -/
def segHits (x : CalCh) (k : Nat) : Nat := (List.range 16).foldl (fun a j => a + tget 0 x.hits (16 * k + j)) 0

/-- Ratios that can complete at range `r`: all while no frames run, else those adjacent to `r` (R189). -/
def ratiosFor (s : State) (c : Nat) : List Nat :=
  if running s then (List.range 3).filter fun a => a == (front s c).range || a + 1 == (front s c).range else List.range 3

/-- A channel has its data for the group's phase. -/
def chanDone (s : State) (g c : Nat) : Bool :=
  let r := runRd s g
  let x := calCh s c
  let p := (calGrp s g).phase
  if p = 2 then (inService s c).all fun k => decide (pedWin r ≤ tget 0 x.pedWins k)
  else if p = 3 then x.runStuck || suppressed s c || (inService s c).all fun k => decide (2 ^ (14 + hitsExp r) ≤ segHits x k)
  else if p = 4 then (ratiosFor s c).all fun a => decide (gainPairs r * 16 ≤ tget 0 x.gainN a)
  else if p = 5 then (g == 8 && c == 256 + zeroSin r) || decide (zeroPulses r * 64 ≤ x.zeroN)
  else true

/-- Start of a phase: its data are cleared. -/
def clearPhase (p : Nat) (x : CalCh) : CalCh :=
  if p = 2 then { x with pedWins := [], pedSum := [] }
  else if p = 3 then { x with hits := [], posHits := [], quiet := 0 }
  else if p = 4 then { x with gainN := [], gainA := [], gainB := [], gainHalf := none, tests := 0 }
  else if p = 5 then { x with zeroN := 0, zeroC := 0, zeroZ := 0 }
  else x

/-- Enter phase `p` of a run, or its ending read after the last phase. -/
def enterPhase (g p : Nat) (s : State) : State :=
  if p = 0 then fillReads (modCalGrp g (fun x => { x with phase := 6, ending := true, readRes := 0, armed := false }) s)
  else
    modCalGrp g (fun x => { x with phase := p, armed := false })
      (each (groupChans g) (fun c => modCalCh c (clearPhase p)) s)

/-- Result codes of phases a run does not carry out: SKIPPED (log entry 18). -/
def resInit (m k : Nat) : Nat := if m.testBit k then 2 else 3

/-- CAL_HOLD_START: the run takes hold and its first phase begins (R181, R183); it uses the RCAL values that come into force
at this boundary. -/
def takeHold (g : Nat) (s : State) : State :=
  let m := (calGrp s g).phases
  let s1 := modCalGrp g (fun x => { x with hold := true, rcal := (upto 1 7).map (rdNext s 0x50) }) s
  let s2 := each (groupChans g) (fun c => modCalCh c (fun x =>
    { x with runPed := resInit m 0, runWidth := resInit m 1, runGain := resInit m 2, runZero := resInit m 3, runStuck := false })) s1
  enterPhase g (nextPhase m 2) s2

/-! ### Segment retirement (R75, R188) -/

/-- Segment `k`, which no ring position and no window holds, is retired: a redundant segment takes its place among the
spares, or the pool shrinks (R75). -/
def dropSpare (x : SampCh) (k : Nat) : SampCh :=
  let y := { x with retired := x.retired ++ [k] }
  match x.redun with
  | n :: r => { y with pool := x.pool ++ [n], redun := r, repl := tset 0x7F x.repl n k }
  | [] => { y with poolSize := x.poolSize - 1 }

/-- Segment `k` at ring position `p` is retired, and redundant segment `n` takes the position (R75). -/
def relinkRedun (x : SampCh) (p k n : Nat) (r : List Nat) : SampCh :=
  { x with ring := tset p x.ring p n, redun := r, repl := tset 0x7F x.repl n k, retired := x.retired ++ [k] }

/-- Segment `k` at ring position `p` is retired, and spare `n` takes the position (R75). -/
def relinkSpare (x : SampCh) (p k n : Nat) : SampCh :=
  { x with ring := tset p x.ring p n, pool := remNat x.pool n, poolSize := x.poolSize - 1, retired := x.retired ++ [k] }

/-- Retire segment `k`: at once from the pool, else when it is met; blocked where no spare exists. -/
def retireSeg (c k : Nat) (s : State) : State :=
  let x := sampCh s c
  if x.redun.length + x.poolSize ≤ x.toRetire.length then
    logNote 0x11 4 c (modCalCh c (fun y => { y with retireBlk := true }) s)
  else if x.pool.contains k then modSampCh c (fun y => dropSpare { y with pool := remNat y.pool k } k) s
  else if x.toRetire.contains k ∨ x.retired.contains k then s
  else modSampCh c (fun y => { y with toRetire := y.toRetire ++ [k] }) s

/-- PED of a cell from the phase's sums, 1/8 code. -/
def pedMeasured (x : CalCh) (k j : Nat) : Int := roundAway (8 * (tget 0 x.pedSum (16 * k + j) : Nat)) (max 1 (tget 0 x.pedWins k))

/-- Hits of a segment before cell `j`. -/
def hitsBefore (x : CalCh) (k j : Nat) : Nat := (List.range j).foldl (fun a i => a + tget 0 x.hits (16 * k + i)) 0

/-- Cell offset from code density, u (R187). -/
def deltaMeasured (x : CalCh) (k j : Nat) : Int :=
  let h := max 1 (segHits x k)
  roundAway (4096 * (2 * (hitsBefore x k j : Int) + (tget 0 x.hits (16 * k + j) : Nat)) - (512 * (j : Int) + 256) * h) (2 * h)

def badPed (r : Rd) (x : CalCh) (k : Nat) : Bool :=
  (List.range 16).any fun j => decide (pedTol r < (pedMeasured x k j - 1024).natAbs)

def badWidth (r : Rd) (x : CalCh) (k : Nat) : Bool :=
  (List.range 16).any fun j =>
    decide (widthTol r * segHits x k < ((4096 * tget 0 x.hits (16 * k + j) : Nat) - 256 * (segHits x k : Int)).natAbs)
      || decide (255 < (deltaMeasured x k j).natAbs)

/-- χ² of the hits over the ring positions exceeds CHI_LIM (R187). -/
def chiRejects (r : Rd) (x : CalCh) : Bool :=
  let n := (List.range 64).foldl (fun a p => a + tget 0 x.posHits p) 0
  let q := (List.range 64).foldl (fun a p => a + ((64 * tget 0 x.posHits p : Nat) - (n : Int)).natAbs ^ 2) 0
  decide (chiLim r * 64 * n < q)

/-- Result of the group's phase on a channel and the retirements that follow. -/
def endChan (g c : Nat) (s : State) : State :=
  let r := runRd s g
  let x := calCh s c
  let p := (calGrp s g).phase
  let ok := chanDone s g c
  if p = 2 then
    let s1 := modCalCh c (fun y => { y with runPed := if ok then 0 else 2, runPedSegs := inService s c }) s
    if ok then each ((inService s c).filter (badPed r x)) (retireSeg c) s1 else s1
  else if p = 3 then
    let res := if x.runStuck then 2 else if suppressed s c then 3 else if ¬ ok then 2 else if chiRejects r x then 1 else 0
    let s1 := modCalCh c (fun y => { y with runWidth := res, runWidthSegs := inService s c }) s
    if res = 0 then each ((inService s c).filter (badWidth r x)) (retireSeg c) s1 else s1
  else if p = 4 then
    modCalCh c (fun y => { y with runGain := if (List.range 3).any (fun a => decide (gainPairs r * 16 ≤ tget 0 x.gainN a)) then 0 else 2,
                                  testR := none }) s
  else if p = 5 then modCalCh c (fun y => { y with runZero := if ok then 0 else 2 }) s
  else s

/-- A phase is over: results of every channel, then the next phase. -/
def endPhase (g : Nat) (s : State) : State :=
  let p := (calGrp s g).phase
  enterPhase g (nextPhase (calGrp s g).phases (p + 1)) (each (groupChans g) (endChan g) s)

/-! ### Application (R191-R193) -/

/-- Mean of two temperatures in 0.125 °C, ties upward (R181). -/
def runTemp (a b : Int) : Int := (a + b + 8192) / 16384

/-- Place a set (R192). -/
def placeSet (within : Nat) (n : TSet) (l : List TSet) : List TSet :=
  let i := nearestSet (l.map TSet.t) n.t
  if (l.any fun x => decide (2 * (x.t - n.t).natAbs ≤ 2 * within)) || decide (8 ≤ l.length) then l.set i n else l ++ [n]

/-- The run has completed ratio `a`. -/
def ratioDone (r : Rd) (x : CalCh) (a : Nat) : Bool := decide (gainPairs r * 16 ≤ tget 0 x.gainN a)

/-- Ratio `a` as two amplitude sums: the run's where it is complete, else the last one measured; where none was, what the
gains `g`, `next` in force imply (R189; log entry 131). -/
def ratioOf (r : Rd) (x : CalCh) (a g next : Nat) : Int × Int :=
  if ratioDone r x a then (tget 0 x.gainA a, tget 0 x.gainB a) else (lookupNat x.ratio a).getD (4 * (next : Int), (g : Int))

/-- G[a] of a ratio and G[a + 1]. -/
def gainFrom (q : Int × Int) (next : Nat) : Nat :=
  if q.1 ≤ 0 then 0xFFFF else (clampI 1 0xFFFF (roundAway (4 * (next : Int) * q.2) q.1.toNat)).toNat

/-- New gains from a = 2 down to a = 0 (R189). -/
def newGains (r : Rd) (x : CalCh) (g0 g1 g2 : Nat) : Nat × Nat × Nat :=
  let n2 := gainFrom (ratioOf r x 2 g2 0x4000) 0x4000
  let n1 := gainFrom (ratioOf r x 1 g1 g2) n2
  (gainFrom (ratioOf r x 0 g0 g1) n1, n1, n2)

/-- OTP skew of an input, its factory delay, and the start model of R191. -/
def otpStart (z : Nat) (t : Int) : Int := roundAway (Config.otpDelayST z * 2 ^ 19 + Config.otpSlopeST z * (t - 200)) (2 ^ 19)

/-- D_st(z) of a group's run: its value at the D9 temperature; in group 8's own run, the value z's set is written with (log
entry 132). -/
def zeroBase (s : State) (g : Nat) (t : Int) : Int :=
  let z := zeroSin (runRd s g)
  if g = 8 then otpStart z t else setValue (calCh s (256 + z)) TSet.d (grpTemp s 8)

/-- Delay measured by the ZERO phase, from D_st(z) `dz`. -/
def zeroDelay (s : State) (g c : Nat) (t dz : Int) : Int :=
  let z := zeroSin (runRd s g)
  let x := calCh s c
  if c = 256 + z then otpStart z t
  else
    dz - Config.otpSkew c + Config.otpSkew (256 + z) + roundAway (x.zeroC - x.zeroZ) (max 1 x.zeroN)

/-- Step of a range's RSEL toward nominal gain (R190). -/
def rselStep (tol g : Nat) (v : Nat) : Nat :=
  if g = 0x4000 ∨ (g - 0x4000 : Int).natAbs ≤ tol * 64 then v
  else if decide (0x4000 < g) = Config.rselRaises then min 15 (v + 1) else v - 1

/-- A table with the cells of `segs` written by `f`. -/
def writeCells {α : Type} [DecidableEq α] (d : α) (segs : List Nat) (f : Nat → Nat → α) (t : Tab α) : Tab α :=
  segs.foldl (fun t k => (List.range 16).foldl (fun t j => tset d t (16 * k + j) (f k j)) t) t

/-- Slew started from the value applied before. -/
def newSlew (slew : Bool) (prev new : Int) : Slew := if slew ∧ prev ≠ new then ⟨prev - new, prev - new, 0⟩ else Slew.zero

/-- New values of a channel at temperature `t` take the place of the values applied before: every quantity, each measured
cell's PED and delta among them, starts one slew from its applied value (R193). -/
def reSlew (slew : Bool) (t : Int) (old new : CalCh) : CalCh :=
  let ped := setValue new (fun v => (v.ped : Int)) t
  evalChan t { new with
    slD := newSlew slew old.apD (setValue new TSet.d t)
    slG0 := newSlew slew old.apG0 (setValue new (fun v => (v.g0 : Int)) t)
    slG1 := newSlew slew old.apG1 (setValue new (fun v => (v.g1 : Int)) t)
    slG2 := newSlew slew old.apG2 (setValue new (fun v => (v.g2 : Int)) t)
    slP := newSlew slew old.apPed ped
    slShape := writeCells Slew.zero new.pedMeas (fun k j => newSlew slew (pedOf old k j) (ped + tget 0 new.shape (16 * k + j))) []
    slDelta := writeCells Slew.zero new.widthMeas (fun k j => newSlew slew (deltaOf old k j) (tget 0 new.delta (16 * k + j))) [] }

/-- Results of a run applied to a channel (CAL_RESULTS_APPLY); `dz`: D_st(z) of the ZERO phase. PED and delta are those of the
segments that were in service when their phases ended: a segment that came after them stays unmeasured (R186-R188). -/
def applyChan (g : Nat) (tRun dz : Int) (slew : Bool) (c : Nat) (s : State) : State :=
  let r := runRd s g
  let x := calCh s c
  let at_ := fun (f : TSet → Int) => setValue x f (tRun * 8192)
  let segs := x.runPedSegs
  let n := (segs.length * 16 : Nat)
  let mean := if x.runPed = 0 then roundAway (segs.foldl (fun a k => (List.range 16).foldl (fun a j => a + pedMeasured x k j) a) 0) (max 1 n)
    else at_ (fun v => (v.ped : Int))
  let gs := if x.runGain = 0 ∧ c < 256 then
      newGains r x (at_ fun v => (v.g0 : Int)).toNat (at_ fun v => (v.g1 : Int)).toNat (at_ fun v => (v.g2 : Int)).toNat
    else ((at_ fun v => (v.g0 : Int)).toNat, (at_ fun v => (v.g1 : Int)).toNat, (at_ fun v => (v.g2 : Int)).toNat)
  let d := if x.runZero = 0 then zeroDelay s g c tRun dz else at_ TSet.d
  let set : TSet := ⟨tRun, d, gs.1, gs.2.1, gs.2.2, mean.toNat⟩
  let noT := (calGrp s g).noTemp
  let sets := if noT then x.sets else placeSet (deltaT r) set x.sets
  let single := if noT then some set else none
  let newG := x.runGain == 0 && decide (c < 256)
  let rsel := (List.range 3).map fun a =>
    if newG then rselStep (gainTol r) (if a = 0 then gs.1 else if a = 1 then gs.2.1 else gs.2.2) (x.rsel.getD a 0) else x.rsel.getD a 0
  modCalCh c (fun _ => reSlew slew (grpTemp s g) x
    { x with
      sets := sets, single := single
      shape := if x.runPed = 0 then writeCells 0 segs (fun k j => pedMeasured x k j - mean) x.shape else x.shape
      delta := if x.runWidth = 0 then writeCells 0 x.runWidthSegs (fun k j => clampI (-255) 255 (deltaMeasured x k j)) x.delta else x.delta
      pedMeas := if x.runPed = 0 then segs else x.pedMeas
      widthMeas := if x.runWidth = 0 then x.runWidthSegs else x.widthMeas
      ratio := (List.range 3).foldl (fun m a =>
        if newG && ratioDone r x a then tset (0, 0) m a (tget 0 x.gainA a, tget 0 x.gainB a) else m) x.ratio
      rsel := rsel
      needGain := decide (rsel ≠ x.rsel) || (x.needGain && x.runGain != 0)
      defWait := false
      pedRes := x.runPed, widthRes := x.runWidth, gainRes := x.runGain, zeroRes := x.runZero }) s

/-- A record is due (R194, R459). -/
def storeDue (g : Nat) (s : State) : State := flashNext (storeRequest { s with cal := { s.cal with unsaved := addNew s.cal.unsaved g } })

/-- The run's results apply, the hold ends and the temperature test is made again (R181, R179). -/
def applyRun (g : Nat) (s : State) : State :=
  match (calGrp s g).tStart, (calGrp s g).tEnd with
  | some a, some b =>
    let tRun := runTemp a b
    let slew := !(opState s == .idle || opState s == .armed)
    let s1 := each (groupChans g) (applyChan g tRun (zeroBase s g tRun) slew) s
    let s2 := modCalGrp g (fun x => { x with phase := 0, hold := false, ending := false, runs := wrapAdd 8 x.runs 1,
                                             tLast := if x.noTemp then x.tLast else tRun }) s1
    let s3 := irq 4 (if (calGrp s g).noTemp then s2 else storeDue g s2)
    let s4 := { s3 with cal := { s3.cal with lastGrp := some g } }
    let changed := (groupChans g).any fun c => (calCh s c).rsel != (calCh s1 c).rsel
    if changed then autoRun g 7 s4 else tempTest g s4
  | _, _ => s

/-- Frames do not run: what waits for a boundary happens at once (R181). -/
def refreshHeld (g : Nat) (s : State) : State :=
  each (groupChans g) (fun c s => modCalCh c (fun x => { x with held := heldNext s c }) s) s

def calAtOnce (g : Nat) (s : State) : State :=
  if running s then s
  else
    let x := calGrp s g
    if x.phase = 1 ∧ x.tStart.isSome then refreshHeld g (takeHold g s)
    else if x.phase = 6 ∧ x.tEnd.isSome then refreshHeld g (applyRun g s)
    else s

/-- Calibration's part of a boundary gap's opening: results apply, runs take hold, values are evaluated, slews
step, held states are set, the hold of a run that a supervisor restart abandoned ends, and the corrections of the closing
epoch are kept for its windows. The supervisor does this: in a command service pause and in RECOVERY it does not happen. -/
def calBoundary (s : State) : State :=
  let s0 := { s with cal := { s.cal with oldChs := tset [] s.cal.oldChs s.cfg.epoch s.cal.chs } }
  if ¬ s.sys.rdy ∨ s.sys.devState = .recovery then s0 else
  let s1 := each (List.range 9) (fun g s =>
    let x := calGrp s g
    if x.phase = 6 ∧ x.tEnd.isSome then applyRun g s
    else if x.phase = 1 ∧ x.tStart.isSome then takeHold g s
    else if x.hold ∧ x.phase ≠ 1 ∧ x.phase ≠ 0 then s
    else each (groupChans g) (fun c s => modCalCh c (fun y => evalChan (grpTemp s g) (slewChan (runRd s g) true y)) s)
      (modCalGrp g (fun y => { y with hold := false }) s)) s0
  each (List.range 9) refreshHeld s1

/-- Delays of the frame a boundary opens (R97). -/
def frameDelays (frame : Nat) (s : State) : State :=
  let t := (List.range 260).foldl (fun t c => tset 320 t c (calCh s c).apD) []
  { s with cal := { s.cal with delays := tset [] s.cal.delays frame t } }

/-! ### Data of the phases -/

/-- Pedestal sums of an accepted CAL window (R186). -/
def pedAdd (c segA segB : Nat) (codes : List Nat) (s : State) : State :=
  if (calGrp s (groupOf c)).phase ≠ 2 then s
  else modCalCh c (fun x =>
    let sum := (List.range 32).foldl (fun t i =>
      tmod 0 t (16 * (if i < 16 then segA else segB) + i % 16) (· + codes.getD i 0)) x.pedSum
    { x with pedSum := sum, pedWins := tmod 0 (tmod 0 x.pedWins segA (· + 1)) segB (· + 1) }) s

/-- Amplitude of a gated pulse in range `tag`, 1/65,536 code: pairs of adjacent ranges (R189). -/
def gainAdd (c tag : Nat) (amp : Int) (s : State) : State :=
  if (calGrp s (groupOf c)).phase ≠ 4 then s
  else modCalCh c (fun x =>
    match x.gainHalf with
    | none => { x with gainHalf := some (tag, amp) }
    | some h =>
      if h.1 + 1 = tag then
        { x with gainHalf := none, gainN := tmod 0 x.gainN h.1 (· + 1), gainA := tmod 0 x.gainA h.1 (· + h.2), gainB := tmod 0 x.gainB h.1 (· + amp) }
      else if tag + 1 = h.1 then
        { x with gainHalf := none, gainN := tmod 0 x.gainN tag (· + 1), gainA := tmod 0 x.gainA tag (· + amp), gainB := tmod 0 x.gainB tag (· + h.2) }
      else { x with gainHalf := some (tag, amp) }) s

/-- A pulse counted for channel `c`: its echo time and that on the reference start input. -/
def zeroPair (c : Nat) (ec ez : Int) (s : State) : State :=
  modCalCh c (fun x => { x with zeroN := x.zeroN + 1, zeroC := x.zeroC + ec, zeroZ := x.zeroZ + ez }) s

/-- A gated pulse's echo time on an input, from its window's first cell `first` (R191). -/
def zeroAdd (c first : Nat) (e : Int) (s : State) : State :=
  let p := s.cal.pulses.filter fun q => decide (s.sys.cyc ≤ q.1 + 100000)
  let s1 := { s with cal := { s.cal with pulses := p ++ [(first, c, e)] } }
  let zeroPhase := fun g => (calGrp s g).phase == 5
  let s2 := (match p.find? fun q => q.1 == first && zeroPhase (groupOf c) && q.2.1 == 256 + zeroSin (runRd s (groupOf c)) with
    | some q => zeroPair c e q.2.2 s1
    | none => s1)
  each (p.filter fun q => q.1 == first && q.2.1 != c && zeroPhase (groupOf q.2.1) && c == 256 + zeroSin (runRd s (groupOf q.2.1)))
    (fun q => zeroPair q.2.1 q.2.2 e) s2

/-- CODE_DENSITY_HIT: a trigger of cycle `t` on input `c` in its group's WIDTH phase (R187). -/
def widthHit (c t : Nat) (s : State) : State :=
  let g := groupOf c
  if (calGrp s g).phase ≠ 3 ∨ (c < 256 ∧ listening s c t) ∨ amberAt s c t ∨ suppressed s c ∨ (g = 8 ∧ (List.range 4).any fun i => accepting s i t) then s
  else
    let p := t / 16 % 64
    let k := tget p (sampCh s c).ring p
    modCalCh c (fun x =>
      { x with hits := tmod 0 x.hits (16 * k + t % 16) (· + 1), posHits := tmod 0 x.posHits p (· + 1) }) s

/-- A trigger ends a stuck-low count, and a later run's trigger the mark (R187). -/
def stuckHeard (c : Nat) (s : State) : State :=
  if (calGrp s (groupOf c)).phase = 0 then s
  else modCalCh c (fun x => { x with quiet := 0, stuckLow := x.stuckLow && x.runStuck }) s

/-- Calibration parks asked for: input, anchor slot, shot. -/
def askParks (l : List (Nat × Nat × Option Nat)) (s : State) : State := { s with samp := { s.samp with calReqs := s.samp.calReqs ++ l } }

/-- Calibration parks asked for that are to hold a gated pulse; marks of windows long gone are dropped. -/
def askPulses (l : List (Nat × Nat × Option Nat)) (s : State) : State :=
  let live := s.cal.gated.filter fun q => decide (s.sys.cyc ≤ 16 * q.2.1 + 10000000)
  askParks l { s with cal := { s.cal with gated := live ++ l } }

/-- Parks of a shot in the PED, WIDTH and GAIN phases of its inputs (R186, R189). -/
def calShot (sh : Shot) (firstShot : Bool) (c : Nat) (s : State) : State :=
  let sid := sh.sid
  let g := groupOf c
  let x := calGrp s g
  let r := runRd s g
  let a := slotBefore sh 60
  if x.phase = 2 ∨ x.phase = 3 then
    let n := (grey s c).shotsPed + 1
    let due := pedEvery r ≤ n
    let s1 := modGrey c (fun y => { y with shotsPed := if due then 0 else n }) s
    if ¬ due then s1
    else askParks ((c, a, some sid) :: (if pedParks r = 2 then [(c, a + 2, some sid)] else [])) s1
  else if x.phase = 4 ∧ firstShot then askPulses [(c, a, some sid)] s
  else s

/-- The inputs a group's gated pulse of the ZERO phase reaches: its own and start input z (R191). -/
def zeroInputs (s : State) (g : Nat) : List Nat := addNew (groupChans g) (256 + zeroSin (runRd s g))

/-- The ZERO phase of a group at a shot: every PED_EVERY-th shot of those that serve the group (for the start inputs, of all)
has a gated pulse in its pre-fire gate, with a park on every input the pulse reaches (R191). -/
def zeroShot (sh : Shot) (g : Nat) (s : State) : State :=
  if (calGrp s g).phase ≠ 5 ∨ ¬ (g = 8 ∨ sh.group.any fun c => groupOf c == g) then s
  else
    let n := (calGrp s g).shots + 1
    let due := pedEvery (runRd s g) ≤ n
    let s1 := modCalGrp g (fun x => { x with shots := if due then 0 else n }) s
    if due then askPulses ((zeroInputs s g).map fun c => (c, slotBefore sh 60, some sh.sid)) s1 else s1

/-- Gated pulses armed in a shot's pre-fire gate; not while an acceptance interval on z is open (R189, R191). -/
def armGate (sid : Nat) (s : State) : State :=
  each (List.range 9) (fun g s =>
    let x := calGrp s g
    let mine := fun (q : Nat × Nat × Option Nat) => q.2.2 == some sid && groupOf q.1 == g
    if !s.cal.gated.any mine then s
    else if x.phase == 4 || (x.phase == 5 && !accepting s (zeroSin (runRd s g)) s.sys.cyc) then
      modCalGrp g (fun x => { x with armed := true }) s
    else { s with cal := { s.cal with gated := s.cal.gated.filter fun q => !mine q } }) s

/-- Parks asked for with no shot running come every 2 µs, the second of a pair of pedestal parks 6.4 ns after the first (R186). -/
def parkTime (x : CalGrp) (m : Nat) : Bool :=
  match x.parkSlot with
  | some k => decide (m = k) || decide (m = k + 2) || decide (k + 625 ≤ m)
  | none => true

/-- A park with no shot running: it sets the group's time, and in the ZERO phase a pulse is armed for it (R185, R191). -/
def idlePark (c m : Nat) (s : State) : State :=
  let g := groupOf c
  let first := match (calGrp s g).parkSlot with | some k => decide (k + 625 ≤ m) | none => true
  let s1 := if first then modCalGrp g (fun x => { x with parkSlot := some m }) s else s
  let owners := (List.range 9).filter fun g => (calGrp s g).phase == 5 && (zeroInputs s g).contains c && !accepting s (zeroSin (runRd s g)) (16 * m)
  if owners = [] then s1
  else each owners (fun g => modCalGrp g (fun x => { x with armed := true }))
    { s1 with cal := { s1.cal with gated := s1.cal.gated.filter (fun q => decide (s.sys.cyc ≤ 16 * q.2.1 + 10000000)) ++ [(c, m, none)] } }

/-- A group's domain goes off: its run is abandoned and its values are lost. -/
def calDomainOff (g : Nat) (s : State) : State :=
  modCalGrp g (fun x => { x with phase := 0, hold := false, ending := false, armed := false, tStart := none, tEnd := none })
    (each (groupChans g) (fun c => modCalCh c (fun x =>
      { x with pedMeas := [], widthMeas := [], shape := [], delta := [], slShape := [], slDelta := [], held := true, testR := none })) s)

/-! ### Commands -/

/-- CAL_TEMP_READ_DONE: T_start or T_end of the run (R182). -/
def execCalTempReadDone (g : Nat) (s : State) : Out :=
  guardObj (decide (g < 9)) <|
    let x := calGrp s g
    let starting := x.phase == 1 && x.tStart.isNone
    let ending := x.ending && x.tEnd.isNone
    if !(starting || ending) || (domUp s 18 && x.readRes == 0) then s
    else
      let stale := !domUp s 18 || x.readRes == 2
      let t := x.temp.getD (Config.unknownTemp g)
      calAtOnce g (modCalGrp g (fun y =>
        { y with tStart := if starting then some t else y.tStart
                 tEnd := if starting then none else some t
                 readRes := 0, tempHold := y.tempHold || (stale && x.temp.isSome), noTemp := y.noTemp || x.temp.isNone }) s)

/-- CAL_PHASE_COMPLETE: every channel of the group has its data (R181). -/
def execCalPhaseComplete (g : Nat) (s : State) : Out :=
  guardObj (decide (g < 9)) <|
    let p := (calGrp s g).phase
    if decide (2 ≤ p) && decide (p ≤ 5) && (groupChans g).all (chanDone s g) then endPhase g s else s

/-- CAL_PHASE_TIMEOUT: channels without data end NODATA; data complete in the same cycle count (R13). -/
def execCalPhaseTimeout (g : Nat) (s : State) : Out :=
  guardObj (decide (g < 9)) <|
    let p := (calGrp s g).phase
    if 2 ≤ p ∧ p ≤ 5 then endPhase g s else s

/-- DITHER_FREE_PULSE: suppressed in windows, gates and amber; a silent channel is stuck low (R185, R187). The
interval to the next pulse is drawn by an LFSR whose polynomial the spec does not give: a free value. -/
def execDitherFreePulse (g : Nat) (s : State) : Out :=
  guardObj (decide (g < 9)) <|
    let r := runRd s g
    if (calGrp s g).phase ≠ 3 ∨ ¬ ditherEn r then s
    else
      let f := takeFree 16 s
      let s0 := { f.2 with cal := { f.2.cal with lfsr := f.1 } }
      let t := s.sys.cyc
      let hush := if g < 8 then (groupChans g).any fun c => listening s c t || amberAt s c t || gated s c t
        else (List.range 4).any fun i => accepting s i t
      if hush then s0
      else each (groupChans g) (fun c s =>
        let x := calCh s c
        if suppressed s c ∨ x.runStuck then s
        else if stuckPulses r * 16 ≤ x.quiet + 1 then
          logNote 0x11 4 c (modCalCh c (fun x => { x with quiet := 0, stuckLow := true, runStuck := true }) s)
        else modCalCh c (fun x => { x with quiet := x.quiet + 1 }) s) s0

/-- DITHER_GATED_PULSE: the armed injector has injected its pulse (R185). -/
def execDitherGatedPulse (g : Nat) (s : State) : Out :=
  guardObj (decide (g < 9)) (modCalGrp g (fun x => { x with armed := false }) s)

/-- Put a channel into its test range: in RUN a neighbour of the range in force, alternating where both exist;
else range a of the cycle over 0, 1, 2 (R189). -/
def testRangeOf (run : Bool) (r n : Nat) : Nat :=
  if run then (if r = 0 then 1 else if r = 3 then 2 else if n % 2 = 0 then r - 1 else r + 1) else n % 3

/-- An indigo request of the channel lies in the test interval around `t` (R189). -/
def indigoNear (s : State) (c t : Nat) : Bool :=
  (s.samp.gateReqs.any fun q => q.1 == c && decide (t ≤ q.2.2.1) && decide (q.2.2.1 ≤ t + 1300)) ||
    (s.samp.reqs.any fun q => q.ch == c && q.kind == .indigo && decide (t ≤ q.stamp) && decide (q.stamp ≤ t + 1300))

/-- GAIN_TEST_STEP: 0 the test range applies, 1 the gated pulse is armed and its park asked for, 2 the second range of
a pair applies where no frames run, 3 the range in force is restored (in RUN at 2). -/
def execGainTestStep (g step : Nat) (s : State) : Out :=
  guardObj (decide (g < 8)) <|
    if (calGrp s g).phase ≠ 4 ∨ (running s ∧ ¬ s.fire.gap) then s
    else
      let run := running s
      let t := s.sys.cyc
      if step = 0 then each (groupChans g) (fun c s =>
        let x := calCh s c
        if x.testR.isSome ∨ (run ∧ indigoNear s c t) then s
        else modFront c (fun y => { y with range := testRangeOf run y.range x.tests })
          (modCalCh c (fun y => { y with testR := some (front s c).range, tests := y.tests + 1 }) s)) s
      else if step = 1 then
        let cs := (groupChans g).filter fun c => (calCh s c).testR.isSome
        modCalGrp g (fun x => { x with armed := true })
          (askPulses (cs.map fun c => (c, t / 16 + 1, none)) s)
      else if step = 2 ∧ ¬ run then each (groupChans g) (fun c =>
        modFront c (fun y => { y with range := min 3 (y.range + 1) })) s
      else each (groupChans g) (fun c s =>
        match (calCh s c).testR with
        | some r => modFront c (fun y => { y with range := r }) (modCalCh c (fun y => { y with testR := none }) s)
        | none => s) s

end Sys2Proof.Machine
end

