-- ==== Sys2Proof/Machine/Sampler.lean ====
section
/-!
DEFINITION. The segment sampler and the slope converter (R63-R82): requests, decisions at slot boundaries,
parks, conversion cycles and the return of segments. Slot boundary `b` is DEVTIME 3.2 b ns, cycle 16 b.
-/

namespace Sys2Proof.Machine

/-- The sampler of an input runs: its domain is up and DEVTIME runs. -/
def sampRuns (s : State) (c : Nat) : Bool := domUp s (inputDom c) && devRuns s

/-! ### Requests (R66-R71) -/

/-- A request joins the sampler's list. -/
def addReq (q : ParkReq) (s : State) : State := { s with samp := { s.samp with reqs := s.samp.reqs ++ [q] } }

/-- Anchor slot of a request. -/
def anchorOf (q : ParkReq) : Nat := q.stamp / 16

/-- Earlier slot of the pair a request asks for first (R67, R69, R71); its anchor is one of the two. -/
def firstPair (r : Rd) (q : ParkReq) : Nat :=
  let m := anchorOf q
  let j := q.stamp % 16
  match q.kind with
  | .trigger =>
    if parkFollowing r then (if j < edgeCells r then m - 1 else m) else (if j < 16 - edgeCells r then m - 1 else m)
  | .indigo => if j < 8 then m - 1 else m
  | .cal => m

/-- Earlier slot of the pair with the other neighbour. -/
def otherPair (m e : Nat) : Nat := if e = m then m - 1 else m

/-- SAMPLER selects a kind of request for raw records (R83). -/
def rawKind (r : Rd) (k : ReqKind) : Bool := match k with | .trigger => rawTrig r | .indigo => rawInd r | .cal => rawCal r

/-- A channel's windows that hold slots of the ring's present count. -/
def liveWins (s : State) (c : Nat) : List Win := s.samp.wins.filter fun w => w.ch == c && !w.carried

/-- The window of a channel that a slot lies in. -/
def winAt (s : State) (c m : Nat) : Option Win := (liveWins s c).find? fun w => w.slot == m || w.slot + 1 == m

/-- Windows parked or reserved whose segments are out of the ring (R74). -/
def inFlight (s : State) (c : Nat) : Nat := (s.samp.wins.filter fun w => w.ch == c && !w.rejoined).length

/-- Limit of windows in flight (R74). -/
def wif (x : SampCh) : Nat := min 8 (x.poolSize / 2)

/-- Free pairs of a channel (R72, R74); none before the ring is filled (R76). -/
def freePairs (s : State) (c : Nat) : Nat :=
  if (sampCh s c).filled then min (wif (sampCh s c) - inFlight s c) ((sampCh s c).pool.length / 2) else 0

def modWin (wid : Nat) (f : Win → Win) (s : State) : State :=
  { s with samp := { s.samp with wins := s.samp.wins.map fun w => if w.wid = wid then f w else w } }

/-- A spare taken from the pool; which one the spec does not say (free value). -/
def takeSpare (c : Nat) (s : State) : Nat × State :=
  let f := takeFree 8 s
  let p := (sampCh s c).pool
  let k := p.getD (f.1 % max 1 p.length) 0
  (k, modSampCh c (fun x => { x with pool := remNat x.pool k }) f.2)

/-- Reason of a window made by a kind of request, and of one joined by it (R72). -/
def reasonOf (k : ReqKind) : Reason := match k with | .trigger => .trigger | .indigo => .indigo | .cal => .cal
def joinReason (w : Reason) (k : ReqKind) : Reason :=
  match w, k with
  | .cal, k => reasonOf k
  | .trigger, .indigo => .both
  | .indigo, .trigger => .both
  | w, _ => w

/-- A window that a trigger or gate joins is selected for a raw record; one that was CAL by the new reason alone. -/
def joinRaw (r : Rd) (w : Win) (k : ReqKind) : Bool := (w.reason != .cal && w.raw) || rawKind r k

/-- A request joins window `w` (R72, R487). -/
def joinWin (q : ParkReq) (w : Win) (s : State) : State :=
  match q.kind with
  | .cal => modSampCh q.ch (fun x => { x with calOvf := satAdd 8 x.calOvf 1 }) s
  | .trigger =>
    let s1 := if w.reason = .cal then modSampCh q.ch (fun x => { x with calOvf := satAdd 8 x.calOvf 1 }) s else s
    modWin w.wid (fun w => { w with reason := joinReason w.reason .trigger, raw := joinRaw (rd s) w .trigger, trig2 := w.trig2 || w.hasTrig,
                                    hasTrig := true, stamp := if w.hasTrig then w.stamp else q.stamp }) s1
  | .indigo =>
    let s1 := if w.reason = .cal then modSampCh q.ch (fun x => { x with calOvf := satAdd 8 x.calOvf 1 }) s else s
    modWin w.wid (fun w => { w with
      reason := joinReason w.reason .indigo
      raw := joinRaw (rd s) w .indigo
      gate := if w.gateSid = none ∨ w.reason = .cal then q.gate else if w.gateSid = q.sid then min w.gate q.gate else w.gate
      gateSid := if w.gateSid = none then q.sid else w.gateSid }) s1

/-- A trigger or gate is lost: REFUSED, and on a return channel GAP pending (R73, R117, R155). -/
def lostPark (c : Nat) (s : State) : State :=
  let s1 := modHdr (fun h => { h with refused := satAdd 32 h.refused 1 }) s
  if c < 256 then modEngCh c (fun x => { x with gapPend := true }) s1 else s1

/-- Refusal counters by kind (R72). -/
def refuse (q : ParkReq) (s : State) : State :=
  match q.kind with
  | .trigger => lostPark q.ch (modSampCh q.ch (fun x => { x with parkOvf := satAdd 16 x.parkOvf 1 }) s)
  | .indigo => lostPark q.ch (modSampCh q.ch (fun x => { x with gateOvf := satAdd 16 x.gateOvf 1 }) s)
  | .cal => modSampCh q.ch (fun x => { x with calOvf := satAdd 8 x.calOvf 1 }) s

/-- Reserve the pair beginning at slot `e` for a request decided at boundary `b`. -/
def reserve (q : ParkReq) (e b : Nat) (s : State) : State :=
  let a := takeSpare q.ch s
  let c := takeSpare q.ch a.2
  let w : Win :=
    { wid := s.samp.nextWid, ch := q.ch, slot := e, posA := e % 64, posB := (e + 1) % 64, spareA := a.1, spareB := c.1, segA := 0, segB := 0, reason := reasonOf q.kind,
      trig2 := false, hasTrig := q.kind == .trigger, stamp := q.stamp, gate := if q.kind = .indigo then q.gate else 0,
      gateSid := if q.kind = .indigo then q.sid else none, calSid := if q.kind = .cal then q.sid else none,
      rtag := 0, sat := false, parkAt := max b (e + 2), cycle := 0, first := 16 * e, stage := .reserved, raw := rawKind (rd s) q.kind, codes := [], carried := false,
      handed := false, rejoined := false }
  { c.2 with samp := { c.2.samp with wins := c.2.samp.wins ++ [w], nextWid := s.samp.nextWid + 1 } }

/-- One request decided at boundary `b` (R72). -/
def decide1 (b : Nat) (q : ParkReq) (s : State) : State :=
  let a := anchorOf q
  match winAt s q.ch a with
  | some w => joinWin q w s
  | none =>
    let n := firstPair (rd s) q
    let free := fun e => (winAt s q.ch (if e = a then a + 1 else a - 1)).isNone
    if q.kind = .cal ∧ ¬ free n then refuse q s
    else
      let e := if free n then n else otherPair a n
      if ¬ free e then lostPark q.ch (modSampCh q.ch (fun x => { x with parkAdj := satAdd 8 x.parkAdj 1 }) s)
      else if q.kind = .indigo ∧ e + 64 < max b (e + 2) then
        lostPark q.ch (modSampCh q.ch (fun x => { x with lateMiss := satAdd 16 x.lateMiss 1 }) s)
      else if freePairs s q.ch = 0 ∨ (q.kind = .trigger ∧ freePairs s q.ch ≤ indReserve (rd s)) then refuse q s
      else reserve q e b s

/-- Order of decisions: triggers by time stamp, indigo by g, calibration; among equals by arrival (log entry 122). -/
def kindRank (k : ReqKind) : Nat := match k with | .trigger => 0 | .indigo => 1 | .cal => 2
def orderReqs (l : List ParkReq) : List ParkReq := sortBy (fun q => (kindRank q.kind : Int)) (sortBy (fun q => (q.stamp : Int)) l)

/-! ### Park instants (R65, R68) -/

/-- An assertion of a saturation detector overlaps the cycles `lo` to `hi`. -/
def satIn (x : Front) (lo hi : Nat) : Bool :=
  (x.sat && decide (x.satAt ≤ hi)) || x.satLog.any fun p => decide (p.1 ≤ hi) && decide (lo ≤ p.2)

/-- The span of a window overlaps an assertion (R46). -/
def satOver (x : Front) (first : Nat) : Bool := satIn x first (first + 31)

/-- Conversion cycles of one round of DEVTIME: it starts anew where DEVTIME wraps (R77, R95). -/
def cyclesPerWrap : Nat := (5 * 2 ^ 64 + 2499) / 2500

/-- Conversion cycle of an instant, and the start of a cycle (R77). -/
def convCycle (t : Nat) : Nat := t / (5 * 2 ^ 64) * cyclesPerWrap + t % (5 * 2 ^ 64) / 2500
def cycleStart (k : Nat) : Nat := k / cyclesPerWrap * (5 * 2 ^ 64) + k % cyclesPerWrap * 2500

/-- A reserved pair leaves the ring and its spares take the two positions. -/
def parkWin (b : Nat) (w : Win) (s : State) : State :=
  let pa := w.posA
  let pb := w.posB
  let x := sampCh s w.ch
  let f := front s w.ch
  modWin w.wid (fun v => { v with segA := tget pa x.ring pa, segB := tget pb x.ring pb, stage := .parked, cycle := convCycle (16 * b),
                                  rtag := f.range, sat := satOver f v.first })
    (modSampCh w.ch (fun y => { y with ring := tset pb (tset pa y.ring pa w.spareA) pb w.spareB }) s)

/-- A run follows a replacement in service (R179). -/
def replaced (c : Nat) (s : State) : State := autoRun (groupOf c) 7 s

/-- A segment that leaves a converted window: back to the pool, or retired (R75, R78). -/
def returnSeg (c k : Nat) (s : State) : State :=
  if (sampCh s c).toRetire.contains k then replaced c (modSampCh c (fun x => dropSpare { x with toRetire := remNat x.toRetire k } k) s)
  else modSampCh c (fun x => { x with pool := x.pool ++ [k] }) s

/-- Codes of a latched cell: 12 bits with overflow in bit 11 (R79). -/
def latchCode (l : Latch) : Nat :=
  match l with
  | .none => 2047 + 2048
  | .gray g => ofGray 11 g.toNat
  | .before => 2048

/-! ### Commands -/

/-- INDIGO_REQUEST: the oldest gate the predictor issued reaches the sampler at `t` (R68, R69). -/
def execIndigoRequest (t : Nat) (s : State) : Out :=
  .next (match s.samp.gateReqs with
    | [] => s
    | q :: r =>
      let s1 := advTo t { s with samp := { s.samp with gateReqs := r } }
      if sampRuns s1 q.1 then
        addReq ⟨q.1, .indigo, q.2.2.1, max t q.2.2.1, q.2.1, some q.2.2.2⟩ s1
      else s1)

/-- Slot `m` may be named by a calibration park: it holds a time of the shot's pre-fire gate from F - 60 ns to F - 10 ns, or,
without a shot, the pair lies outside every listening window (R71). -/
def calParkOk (s : State) (m : Nat) (sid : Option Nat) : Bool :=
  match sid with
  | some n => (match shotOf s n with
    | some x => decide (fireTime x < 128 * (m + 1) + 8 * ns 60) && decide (128 * m + 8 * ns 10 ≤ fireTime x)
    | none => false)
  | none => s.fire.shots.all fun x => x.ended || x.released || listenOver x (16 * m) || decide (128 * (m + 2) ≤ fireTime x)

/-- CALIBRATION_PARK_REQUEST (R71). -/
def execCalibrationParkRequest (c anchor : Nat) (sid : Option Nat) (t : Nat) (s : State) : Out :=
  guardObj (decide (c < 260)) <|
    let s1 := advTo t { s with samp := { s.samp with calReqs := s.samp.calReqs.erase (c, anchor, sid) } }
    let asked := s.samp.calReqs.contains (c, anchor, sid)
    if !(sampRuns s1 c && calParkOk s1 anchor sid && (asked || sid.isSome || parkTime (calGrp s (groupOf c)) anchor)) then s1
    else
      addReq ⟨c, .cal, 16 * anchor, max t (16 * anchor), 0, sid⟩ (if sid.isNone && !asked then idlePark c anchor s1 else s1)

/-- SLOT_BOUNDARY_DECISION: every request whose request time lies at or before boundary `b` (R68, R72). -/
def execSlotBoundaryDecision (b : Nat) (s : State) : Out :=
  if ¬ devRuns s then .next s
  else
    let due := orderReqs (s.samp.reqs.filter fun q => decide (q.at_ ≤ 16 * b))
    let s1 := advTo (16 * b) { s with samp := { s.samp with reqs := s.samp.reqs.filter fun q => !decide (q.at_ ≤ 16 * b) } }
    .next (each due (decide1 b) s1)

/-- PARK_INSTANT: the pairs whose park instant has come (R68). -/
def execParkInstant (b : Nat) (s : State) : Out :=
  if ¬ devRuns s then .next s
  else
    .next (each (s.samp.wins.filter fun w => w.stage == .reserved && decide (w.parkAt ≤ b)) (parkWin b) (advTo (16 * b) s))

/-- RING_RELINK_RETIRE: the retired segment at the position that boundary `b` would write is replaced (R75). -/
def execRingRelinkRetire (c b : Nat) (s : State) : Out :=
  guardObj (decide (c < 260)) <|
    let p := b % 64
    let x := sampCh s c
    let k := tget p x.ring p
    if ¬ sampRuns s c ∨ ¬ x.toRetire.contains k then s
    else
      let s0 := advTo (16 * b) s
      match x.redun with
      | n :: r => replaced c (modSampCh c (fun y => relinkRedun { y with toRetire := remNat y.toRetire k } p k n r) s0)
      | [] =>
        if x.pool = [] then s0
        else
          let a := takeSpare c s0
          replaced c (modSampCh c (fun y => relinkSpare { y with toRetire := remNat y.toRetire k } p k a.1) a.2)

/-- SAMPLER_FILL_DONE: each position of the group's rings has been written once (R76). -/
def execSamplerFillDone (b : Nat) (s : State) : Out :=
  guardObj (decide (b < 9)) <|
    if sampRuns s ((groupChans b).headD 0) then each (groupChans b) (fun c => modSampCh c (fun x => { x with filled := true })) s else s

/-- CONVERSION_CYCLE_START: the windows parked before the cycle are its set (R77, R78). -/
def execConversionCycleStart (k : Nat) (s : State) : Out :=
  if ¬ devRuns s then .next s
  else
    .next (advTo (cycleStart k) { s with samp := { s.samp with
      conv := some (k, false)
      wins := s.samp.wins.map fun w =>
        if w.stage = .parked ∧ (w.cycle < k ∨ w.carried) then { w with stage := .converting } else w } })

/-- RAMP_END: unlatched cells take 2,047 with overflow (R78, R79). -/
def execRampEnd (cells : List (Nat × List Latch)) (s : State) : Out :=
  .next (match s.samp.conv with
    | some (k, false) =>
      { s with samp := { s.samp with
        conv := some (k, true)
        wins := s.samp.wins.map fun w =>
          if w.stage = .converting then
            { w with stage := .converted,
                     codes := (List.range 32).map fun i => latchCode (((lookupNat cells w.wid).getD []).getD i .none) }
          else w } }
    | _ => s)

/-- SEGMENTS_REJOIN: the converted set's segments are spares again (R78). -/
def execSegmentsRejoin (s : State) : Out :=
  let back := s.samp.wins.filter fun w => w.stage == .converted && !w.rejoined
  let s1 := { s with samp := { s.samp with
    wins := (s.samp.wins.map fun w => if w.stage = .converted then { w with rejoined := true } else w).filter fun w => !(w.rejoined && w.handed) } }
  .next (each back (fun w s => returnSeg w.ch w.segB (returnSeg w.ch w.segA s)) s1)

end Sys2Proof.Machine
end

