-- ==== Sys2Proof/Machine/Front.lean ====
section
/-!
DEFINITION. Front ends and zone logic (R36-R62): ranges, thresholds, DC restoration, comparators, saturation,
zone confirmation and pins; and their commands that touch nothing else.
-/

namespace Sys2Proof.Machine

/-! ### Ranges and thresholds (R39-R44) -/

/-- CFAR code of a channel at its range in force (R142). -/
def cfarCode (r : Rd) (c rng : Nat) (x : Grey) : Nat :=
  let num := (cfarK r (c / 32) * x.sigX * 1024 * 4 ^ x.rg : Int)
  (clampI 1 1023 (roundAway num (16 * 8 * 1920 * 4 ^ rng))).toNat

/-- A channel's CFAR code is computed anew (R142). -/
def cfarAgain (c : Nat) (s : State) : State :=
  modGrey c (fun x => { x with thr := cfarCode (rd s) c (front s c).range x }) s

/-- Put a range in force: counts and pending range clear (R40). -/
def setRange (c rng : Nat) (s : State) : State :=
  let s1 := modFront c (fun x => { x with range := rng, pend := none, upCnt := 0, downCnt := 0 }) s
  if c < 256 then cfarAgain c s1 else s1

/-- Apply a pending range change. -/
def applyRange (c : Nat) (s : State) : State :=
  match (front s c).pend with | some n => setRange c n s | none => s

/-- Threshold code for the next shot (R43, R57). -/
def thrFor (s : State) (c : Nat) : Nat :=
  if 256 ≤ c then sinThr (rd s) (c - 256)
  else if thrCfar (rd s) (c / 32) then max 1 (grey s c).thr else chThr (rd s) c

/-- Range limits of a bank; RANGE_MIN above RANGE_MAX leaves RANGE_MAX (R41). -/
def rangeLo (r : Rd) (b : Nat) : Nat := min (rangeMin r b) (rangeMax r b)
def clampRange (r : Rd) (b n : Nat) : Nat := if rangeMax r b < rangeMin r b then rangeMax r b else clampN (rangeMin r b) (rangeMax r b) n

/-- Starting range of a channel at power-up and at ARMED from IDLE (R41). -/
def startRange (r : Rd) (c : Nat) : Nat := if rangeFixed r (c / 32) then chRange r c else clampRange r (c / 32) (chRange r c)

/-- Automatic ranging over one shot's peak (R40, R41). `peak` in 1/65,536 of full scale. -/
def evalRange (r : Rd) (c : Nat) (sat : Bool) (peak : Nat) (x : Front) : Front :=
  let b := c / 32
  if rangeFixed r b then x
  else
    let up := sat || decide (upLevel r b * 256 < peak)
    let down := !up && decide (peak < downLevel r b * 256)
    let u := if up then x.upCnt + 1 else 0
    let d := if down then x.downCnt + 1 else 0
    let y := { x with upCnt := u, downCnt := d }
    if rangeMax r b < rangeMin r b then { y with pend := if x.range = rangeMax r b then none else some (rangeMax r b) }
    else if upShots r b ≤ u ∧ x.range < rangeMax r b then { y with pend := some (x.range + 1) }
    else if downShots r b ≤ d ∧ rangeMin r b < x.range then { y with pend := some (x.range - 1) }
    else y

/-- What new BANK words do to a channel's range (R41): `old` and `new` views. What becomes of a change already pending is log
entry 120's. -/
def swapRange (old new : Rd) (c : Nat) (x : Front) : Front :=
  let b := c / 32
  if rangeFixed new b then
    (if chRange new c ≠ chRange old c ∨ ¬ rangeFixed old b then { x with pend := if chRange new c = x.range then none else some (chRange new c) } else x)
  else if (rangeMin new b, rangeMax new b) ≠ (rangeMin old b, rangeMax old b) ∨ rangeFixed old b then
    (if clampRange new b x.range ≠ x.range then { x with pend := some (clampRange new b x.range) }
     else match x.pend with
       | some n => { x with pend := if rangeFixed old b ∨ clampRange new b n ≠ n then none else some n }
       | none => x)
  else x

/-- A shot's pre-fire gate on a channel is eligible for a range change: no listening window and no amber interval of another
shot lasts into it (R39). -/
def eligible (s : State) (x : Shot) (c : Nat) : Bool :=
  s.fire.shots.all fun y => y.sid == x.sid || !(y.group.contains c && firing y) ||
    !(decide (fireTime y + 8 * ns 10 ≤ fireTime x) &&
      (decide (fireTime x < shotTime y y.listenEnd + 8 * ns 120) || decide (fireTime x < amberEndOf (rd s) y c + 8 * ns 120)))

/-- The gate opens on a channel: a pending range, the threshold, an unmasking; FRONTSTAT shows the range (R38, R44, R51, R62). -/
def openGate (x : Shot) (c : Nat) (s : State) : State :=
  let s1 := if eligible s x c then applyRange c s else s
  modFront c (fun y => { y with thr := thrFor s1 c, maskHeld := false, shown := y.range }) s1

/-- DC restoration as latched at F - 10 ns (R37, R38). -/
def latchDcr (now cur : Nat) (x : Front) : Front :=
  if now < x.settleAt then { x with dcr := 0, dcrLim := false }
  else if 4096 < cur then { x with dcr := 0xFFF, dcrLim := true }
  else { x with dcr := min cur 0xFFF, dcrLim := x.dcrLim && decide (4014 < cur) }

/-! ### Comparators and saturation (R45-R51) -/

/-- A crossing closes the comparator; what it makes of it: a trigger, unless disabled, masked, in amber, or closer than
0.8 ns to the last one reported (log entry 121). -/
def crosses (s : State) (c t : Nat) : Bool :=
  sampRuns s c && (front s c).armed && (front s c).thr != 0 && !(decide (c < 256) && (amberAt s c t || suppressed s c)) &&
    (match (front s c).lastTrig with | some p => decide (p + 4 ≤ t) | none => true)

/-- The comparator is high from here on. -/
def crossed (c t : Nat) (trig : Bool) (s : State) : State :=
  modFront c (fun x => { x with armed := x.armed && x.thr == 0, lastTrig := if trig then some t else x.lastTrig }) s

/-- Triggers of a channel in a shot's window. -/
def trigCount (x : Shot) (c : Nat) : Nat := (x.trigs.filter fun p => p.1 == c).length

/-- TRIG_LIMIT_EXCEEDED: one event for each open window whose count passes the limit (R50). -/
def trigLimitHits (c t : Nat) (s : State) : State :=
  let n := (s.fire.shots.filter fun x => x.group.contains c && inListen x t && trigCount x c == trigLimit (rd s) (c / 32) + 1).length
  each (List.range n) (fun _ => raiseOpen 3 c) s

/-- Note the trigger in each shot whose listening window holds it. -/
def noteTrig (c t : Nat) (s : State) : State :=
  modShots (fun x => if x.group.contains c && inListen x t then { x with trigs := x.trigs ++ [(c, t)] } else x) s

/-- Trigger time from F in whole ns, truncated (R52); F includes FINE, 25 ps. -/
def zoneTime (x : Shot) (t : Nat) : Nat := (fromFire x t / 40).toNat

/-- Gates (0 near, 1 far) that a time matches (R52). -/
def gateHits (r : Rd) (c n : Nat) : List Nat :=
  (List.range 2).filter fun g => gateEn r c g && decide (gateStart r c g ≤ n) && decide (n ≤ gateEnd r c g)

/-- ZONE_MATCH: new detections of a trigger join the channel's entry in the event queue (R52, R55). -/
def zoneMatch (c t : Nat) (s : State) : State :=
  let hits := (s.fire.shots.filter fun x => x.group.contains c && inListen x t).flatMap fun x =>
    ((gateHits (rd s) c (zoneTime x t)).filter fun g => !x.zoneHits.contains (c, g)).map fun g => (x.sid, g)
  if hits = [] then s
  else
    let q := if s.zone.queue.any (fun e => e.1 == c) then s.zone.queue.map (fun e => if e.1 = c then (c, e.2 ++ hits) else e)
      else s.zone.queue ++ [(c, hits)]
    modShots (fun x => { x with zoneHits := x.zoneHits ++ ((hits.filter fun h => h.1 == x.sid).map fun h => (c, h.2)) })
      { s with zone := { s.zone with queue := q } }

/-- Note an assertion on a return channel in the listening windows that hold `t`, outside amber (R46). -/
def noteSat (c t : Nat) (s : State) : State :=
  if amberAt s c t then s
  else modShots (fun x => if x.group.contains c && inListen x t && !x.satSeen.contains c then { x with satSeen := x.satSeen ++ [c] } else x) s

/-- SAT_CNT advances for the inputs of a list that a shot saw saturated. -/
def countSat (x : Shot) (cs : List Nat) (s : State) : State :=
  each (cs.filter fun c => x.satSeen.contains c) (fun c => modFront c (fun f => { f with satCnt := satAdd 14 f.satCnt 1 })) s

/-! ### Zone confirmation and pins (R53, R54) -/

/-- A shot enters the histories of its channels when its first edge is driven; they reach back past every shot that can still
be open. -/
def zoneShot (x : Shot) (s : State) : State :=
  let h := x.group.foldl (fun h c =>
    (List.range 2).foldl (fun h g => tmod [] h (2 * c + g) (fun l => ((x.sid, false) :: l).take 256)) h) s.zone.hist
  { s with zone := { s.zone with hist := h } }

/-- Detections among the last M shots up to shot `sid`, the present one, that confirm a gate (R53). -/
def confirms (r : Rd) (p sid : Nat) (l : List (Nat × Bool)) : Bool :=
  let m := pinM r p
  let n := min (pinN r p) m
  decide (n ≤ (((l.dropWhile fun e => e.1 != sid).take m).filter fun e => e.2).length)

/-- One queued detection: history, confirmation, pin. -/
def zoneDetect (c : Nat) (h : Nat × Nat) (s : State) : State :=
  let k := 2 * c + h.2
  let l := (tget [] s.zone.hist k).map fun e => if e.1 = h.1 then (e.1, true) else e
  let s1 := { s with zone := { s.zone with hist := tset [] s.zone.hist k l } }
  let p := gatePin (rd s) c h.2
  if confirms (rd s) p h.1 l then { s1 with zone := { s1.zone with pins := tset ZonePin.reset s1.zone.pins p ⟨true, s1.sys.now⟩ } } else s1

/-- HOLD in 0.2 ns: 100 ns at least (R54). -/
def holdTime (r : Rd) (p : Nat) : Nat := if pinHold r p = 0 then ns 100 else pinHold r p * 5000

/-! ### Commands -/

/-- ZONE_EVENT_SERVICE: the channel's entry is drained (R55). -/
def execZoneEventService (c : Nat) (s : State) : Out :=
  guardObj (decide (c < 256)) <|
    match s.zone.queue.find? fun e => e.1 == c with
    | none => s
    | some e => each e.2 (zoneDetect c) { s with zone := { s.zone with queue := s.zone.queue.filter fun e => e.1 != c } }

/-- ZONE_HOLD_EXPIRY: HOLD after the last confirmed detection is over (R54). -/
def execZoneHoldExpiry (p : Nat) (s : State) : Out :=
  guardObj (decide (p < 4)) <|
    let x := tget ZonePin.reset s.zone.pins p
    if x.on ∧ x.since + holdTime (rd s) p ≤ s.sys.now then { s with zone := { s.zone with pins := tdel s.zone.pins p } } else s

/-- PRE_FIRE_GATE_OPEN (R38, R57); the gated pulses of this gate are armed (R185). -/
def execPreFireGateOpen (sid : Nat) (s : State) : Out :=
  .next (match shotOf s sid with
    | none => s
    | some x =>
      let s1 := each (x.group.filter fun c => domUp s (inputDom c)) (openGate x) s
      let s2 := if x.sin < 4 then modFront (256 + x.sin) (fun y => { y with thr := thrFor s (256 + x.sin), shown := y.range }) s1 else s1
      armGate sid s2)

/-- DCR_LATCH: the steady current of each channel of the shot's emitter, and of its start input (R38, R139). -/
def execDcrLatch (sid : Nat) (cur : List (Nat × Nat)) (s : State) : Out :=
  .next (match shotOf s sid with
    | none => s
    | some x =>
      let cs := (x.group ++ if x.sin < 4 then [256 + x.sin] else []).filter fun c => domUp s (inputDom c)
      each cs (fun c s =>
        let s1 := modFront c (latchDcr s.sys.now ((lookupNat cur c).getD 0)) s
        if c < 256 then modGrey c (fun g => { g with dcrSum := g.dcrSum + (front s1 c).dcr, dcrNum := g.dcrNum + 1 }) s1 else s1) s)

/-- A shot's amber interval ends on a channel: unless another covers it, a comparator whose input stays above threshold waits
for its fall, and a saturation that lasts is counted (R46, R49). -/
def amberOver (sid : Nat) (above : List Nat) (c : Nat) (s : State) : State :=
  if ¬ blankedByShot (front s c) sid then s
  else
    let s1 := modFront c (fun f => { f with blankedBy := f.blankedBy.filter fun p => p.1 != sid }) s
    if amber s1 c then s1
    else
      let s2 := modFront c (fun f => { f with armed := !above.contains c }) s1
      if (front s2 c).sat then noteSat c s.sys.cyc s2 else s2

/-- End of a shot's amber interval on the channels of bank `b`, which share NEAR_BLANK. -/
def amberEndAt (s : State) (sid b : Nat) : Option Nat :=
  (groupChans b).findSome? fun c => ((front s c).blankedBy.find? fun p => p.1 == sid).map fun p => p.2

/-- AMBER_END: a shot's amber interval ends in the bank `above.1` (R48). -/
def execAmberEnd (sid : Nat) (above : Nat × List Nat) (s : State) : Out :=
  guardObj (decide (above.1 < 8)) (match amberEndAt s sid above.1 with
    | none => s
    | some t => each (groupChans above.1) (amberOver sid above.2) (advTo ((t + 7) / 8) s))

/-- RANGE_EVALUATE: once, 20 ns after the shot's listening window ends (R40). -/
def execRangeEvaluate (sid : Nat) (peaks : List (Nat × Nat)) (s : State) : Out :=
  .next (match shotOf s sid with
    | none => s
    | some x =>
      if ¬ x.ended ∨ x.evaluated then s
      else each (x.group.filter fun c => domUp s (inputDom c)) (fun c s =>
        modFront c (evalRange (rd s) c (x.satSeen.contains c) ((lookupNat peaks c).getD 0)) s)
        (modShot sid (fun y => { y with evaluated := true }) s))

/-- RANGE_APPLY_IDLE: in IDLE, ARMED, HOLD and SAFE a pending range applies (R39). -/
def execRangeApplyIdle (c : Nat) (s : State) : Out :=
  guardObj (decide (c < 260)) <|
    match opState s with
    | .idle | .armed | .hold | .safe => if domUp s (inputDom c) then applyRange c s else s
    | .boot | .run | .recovery => s

/-- SATURATION_ASSERT at `t`: windows that overlap it carry SAT (R46). -/
def execSaturationAssert (c t : Nat) (s : State) : Out :=
  guardObj (decide (c < 260)) <|
    if sampRuns s c then
      let s1 := modFront c (fun x => { x with sat := true, satAt := if x.sat then x.satAt else t }) (advTo t s)
      if c < 256 then noteSat c t s1 else s1
    else s

/-- SATURATION_RECOVERY: the output is back within 1 % of full scale (R46). -/
def execSaturationRecovery (c : Nat) (s : State) : Out :=
  guardObj (decide (c < 260)) <|
    modFront c (fun x => if x.sat then
      { x with sat := false, satLog := (x.satAt, s.sys.cyc) :: x.satLog.filter (fun p => decide (s.sys.cyc ≤ p.2 + 4096)) } else x) s

/-- COMPARATOR_REARM: the input is below the threshold minus the hysteresis (R45). -/
def execComparatorRearm (c : Nat) (s : State) : Out :=
  guardObj (decide (c < 260)) (if sampRuns s c then modFront c (fun x => { x with armed := true }) s else s)

/-- STUCK_HIGH_TIMEOUT: 1.0 µs above threshold outside amber counts one event (R50). -/
def execStuckHighTimeout (c : Nat) (s : State) : Out :=
  guardObj (decide (c < 256)) (if sampRuns s c ∧ ¬ (front s c).armed ∧ ¬ amber s c ∧ ¬ suppressed s c then raiseOpen 3 c s else s)

/-- The first start trigger in edge 1's interval of a shot gives its start (R93). -/
def noteStart (i t : Nat) (s : State) : State :=
  modShots (fun x => if x.sin == i && x.sStamp.isNone && (acceptEdges (rd s) x t).contains 0 then { x with sStamp := some t, startWait := true } else x) s

/-- START_TRIGGER: on start input `i` at `t`; inside an acceptance interval it asks for a park (R81, R93). -/
def execStartTrigger (i t : Nat) (s : State) : Out :=
  guardObj (decide (i < 4)) <|
    let c := 256 + i
    if ¬ crosses s c t then crossed c t false s
    else
      let s1 := stuckHeard c (widthHit c t (crossed c t true (advTo t s)))
      if accepting s1 i t then addReq ⟨c, .trigger, t, t + 4, 0, none⟩ (noteStart i t s1) else s1

end Sys2Proof.Machine
end

