-- ==== Sys2Proof/Machine/Records.lean ====
section
/-!
DEFINITION. The records the device produces and the way they take to the stream link and the archive
(R83, R84, R144, R153-R155, R164, R344-R349, R378, R382).
-/

namespace Sys2Proof.Machine

/-! ### Layouts -/

/-- FLAGS of an echo record, bits [11:0] of the field (R154). -/
def echoFlags (e : Echo) : Nat :=
  put (b2n e.sat) 1 11 + put (b2n e.stale) 1 10 + put (b2n e.stacked) 1 9 + put (b2n e.indigo) 1 8
    + put (b2n (e.cls == 3)) 1 7 + put (b2n e.gap) 1 6 + put (b2n e.lowconf) 1 5 + put (b2n e.nearFlag) 1 4

/-- An echo record (R153). -/
def echoBytes (dev : Nat) (x : Shot) (e : Echo) : List Byte :=
  leBytes 16 (put e.tof 22 106 + put e.amp 16 90 + put e.width 10 80 + put e.ch 8 72 + put dev 3 69 + put (min 7 e.eidx) 3 66
    + put e.cls 4 62 + put e.rtag 2 60 + put (echoFlags e) 12 48 + put x.n 24 24 + put x.angle 24 0)

def reasonCode (r : Reason) : Nat := match r with | .trigger => 0 | .indigo => 1 | .cal => 2 | .both => 3

/-- A raw window record (R84). A start window's EMIT is 0xF, by which its channel is told from a return's (log entry 123). Of a
FIRST_T that FINE leaves between two cells the free bit takes the one below or above (log entry 38). -/
def rawBytes (dev : Nat) (x : Shot) (w : Win) (free : Nat) : List Byte :=
  let start := decide (256 ≤ w.ch)
  let h := put (if start then w.ch - 256 else w.ch) 8 120 + put dev 3 117 + put (reasonCode w.reason) 2 115 + put w.rtag 2 113
    + put (b2n w.sat) 1 112 + put (b2n w.trig2) 1 111 + put (if start then 15 else x.em) 4 106 + put w.segA 7 99 + put w.segB 7 92
    + put x.n 24 68 + put (usgn 24 (divFree (fromFire x w.first) 8 free)) 24 44 + put x.frame 16 28 + put w.gate 2 26
  leBytes 16 h ++ leBytes 48 ((List.range 32).foldl (fun a i => a + put (w.codes.getD i 0) 12 (12 * i)) 0)

/-- A frame header (R155): completed at the first code step. -/
def headerBytes (dev tFirst angleB : Nat) (h : HdrPend) : List Byte :=
  leBytes 4 h.frame ++ leBytes 8 tFirst ++ leBytes 3 angleB
    ++ leBytes 1 (dev % 8 + put (b2n h.tempHold) 1 3 + put (b2n h.forced) 1 4 + put (b2n h.limit) 1 5)
    ++ leBytes 2 h.greyMin ++ leBytes 2 h.greyMed ++ leBytes 2 h.greyMax ++ leBytes 2 h.nPred ++ leBytes 2 h.nClamp
    ++ leBytes 1 h.cnt.defer ++ leBytes 1 0 ++ leBytes 2 h.cnt.forcedSkip ++ leBytes 2 0 ++ leBytes 4 h.cnt.shots
    ++ leBytes 4 h.cnt.echoes ++ leBytes 4 h.cnt.foreign ++ leBytes 4 h.cnt.shed ++ leBytes 4 h.cnt.lost
    ++ leBytes 4 h.cnt.withheld ++ leBytes 4 h.cnt.refused ++ leBytes 4 0

/-- A spill record (R164). -/
def spillBytes (dev frame reason dir ch binK zoom : Nat) (geom : Bool) (h : Hist) : List Byte :=
  leBytes 4 frame ++ leBytes 1 (dev % 8 + put reason 1 3 + put (b2n h.satb) 1 4 + put (b2n geom) 1 5) ++ leBytes 1 dir
    ++ leBytes 2 ch ++ leBytes 1 binK ++ leBytes 3 0 ++ leBytes 4 zoom ++ leBytes 4 h.firstFrame ++ leBytes 4 h.echoes
    ++ leBytes 4 h.oor ++ leBytes 4 0 ++ (List.range 1024).flatMap fun i => leBytes 2 (tget 0 h.bins i)

/-! ### To the stream link (R346, R347) -/

/-- A stream's records are produced for the link: D15 on and the stream enabled (R15, R349). -/
def streamOn (s : State) (v : Nat) : Bool :=
  domUp s 15 && (if v = 0 then lkEchoEn (rd s) else if v = 1 then lkWaveEn (rd s) else if v = 2 then lkHistEn (rd s) else true)

/-- Every frame of a list closed: no record may join. -/
def closeAll (l : List Ready) : List Ready := l.map fun f => { f with closed := true }

/-- Bytes in cargo frames of 256. -/
def cargoChunks : Nat → List Byte → List (List Byte)
  | 0, _ => []
  | n + 1, b => if b = [] then [] else b.take 256 :: cargoChunks n (b.drop 256)

/-- A record that starts a new frame and runs on in the following ones. -/
def linkFresh (v : Nat) (fh rt : Bool) (b : List Byte) (s : State) : State :=
  let fs := (cargoChunks (b.length / 256 + 1) b).zipIdx.map fun p => Ready.mk fh (decide (p.2 = 0)) rt p.1 (decide (p.1.length = 256))
  { s with link := { s.link with
      fed := tset 0 s.link.fed v s.sys.now
      ready := tmod [] s.link.ready v (fun l => closeAll l ++ fs) } }

/-- A record that joins the stream's open frame where it fits whole. -/
def linkJoin (v : Nat) (b : List Byte) (s : State) : State :=
  { s with link := { s.link with fed := tset 0 s.link.fed v s.sys.now, ready := tmod [] s.link.ready v (fun l =>
      match l.reverse with
      | f :: r =>
        if !f.closed && decide (f.bytes.length + b.length ≤ 256) then
          (r.reverse ++ [{ f with bytes := f.bytes ++ b, closed := decide (f.bytes.length + b.length = 256) }])
        else closeAll l ++ [⟨false, true, false, b, false⟩]
      | [] => [⟨false, true, false, b, false⟩]) } }

/-! ### To the archive (R378, R382) -/

/-- A record destined for ring 0 WAVE, 1 ECHO, 2 HIST goes toward the staging buffer. -/
def archPut (ring : Nat) (b : List Byte) (s : State) : State :=
  let en := if ring = 0 then arWaveEn (rd s) else if ring = 1 then arEchoEn (rd s) else arHistEn (rd s)
  if domUp s 17 && en then { s with arch := { s.arch with inQ := s.arch.inQ ++ [(ring, b)] } } else s

/-! ### Producers -/

def putEcho (b : List Byte) (s : State) : State := archPut 1 b (if streamOn s 0 then linkJoin 0 b s else s)

def putHeader (b : List Byte) (s : State) : State :=
  archPut 1 (List.replicate 16 0xFF ++ b) (if streamOn s 0 then linkFresh 0 true false b s else s)

def putRaw (b : List Byte) (s : State) : State := archPut 0 b (if streamOn s 1 then linkJoin 1 b s else s)

/-- A HIST record for the link, for the archive or for both; `ambient` is the record type. -/
def putHist (ambient toLink toArch : Bool) (b : List Byte) (s : State) : State :=
  let s1 := if toLink && streamOn s 2 then linkFresh 2 false ambient b s else s
  if toArch then archPut 2 (leBytes 4 b.length ++ leBytes 12 (b2n ambient) ++ b) s1 else s1

end Sys2Proof.Machine
end

