-- ==== Sys2Proof/Machine/Chain.lean ====
section
/-!
DEFINITION. The standard chain's steps 1-7 (R122-R124): from 32 samples to candidates. Samples in Q12.3,
times in u of 0.78125 ps where not said otherwise. Rounding is to nearest, ties away from zero.
-/

namespace Sys2Proof.Machine

/-- A window of signed values, cell 0 first. -/
abbrev Vals := List Int

def at_ (x : Vals) (i : Nat) : Int := x.getD i 0

/-- Value at a cell that may lie outside the window: 0 there. -/
def atZ (x : Vals) (i : Int) : Int := if 0 ≤ i ∧ i < 32 then at_ x i.toNat else 0

/-- Nearest whole number of a / b for a signed divisor. -/
def roundDiv (a b : Int) : Int := if b < 0 then roundAway (-a) b.natAbs else roundAway a b.natAbs

/-- Step 1: pedestal. -/
def step1 (ped : Nat → Int) (codes : List Nat) : Vals :=
  (List.range 32).map fun (i : Nat) => satI 16 (8 * ((codes.getD i 0 % 2048 : Nat) : Int) - ped i)

/-- Overflow masks of a sample list: positive (code 2,047) and negative (code 0). -/
def maskPos (codes : List Nat) (i : Nat) : Bool := (codes.getD i 0).testBit 11 && codes.getD i 0 % 2048 == 2047
def maskNeg (codes : List Nat) (i : Nat) : Bool := (codes.getD i 0).testBit 11 && codes.getD i 0 % 2048 == 0

/-- The candidate of a list nearest to `i`, the lower on a tie. -/
def nearest (i : Nat) (l : List Nat) : Option Nat :=
  l.foldl (fun m k => match m with
    | none => some k
    | some b => if (((k : Int) - i).natAbs) < ((b : Int) - i).natAbs then some k else some b) none

/-- Step 2: values on the nominal grid from cells taken at `tau`. -/
def step2 (tau : Nat → Int) (x : Vals) : Vals :=
  let up := (List.range 31).filter fun k => decide (tau k < tau (k + 1))
  (List.range 32).map fun (i : Nat) =>
    let t : Int := 256 * (i : Int)
    let inside := up.filter fun k => decide (tau k ≤ t) && decide (t ≤ tau (k + 1))
    match nearest i (if inside = [] then up else inside) with
    | none => at_ x i
    | some k => satI 16 (roundDiv (at_ x k * (tau (k + 1) - tau k) + (at_ x (k + 1) - at_ x k) * (t - tau k)) (tau (k + 1) - tau k))

/-- Step 3: gain, Q2.14. -/
def step3 (g : Nat) (x : Vals) : Vals := x.map fun v => satI 16 (v * g / 2 ^ 14)

/-- Step 4: matched filter with taps `h` and NORM `n`. -/
def step4 (h : Nat → Int) (n : Nat) (x : Vals) : Vals :=
  (List.range 32).map fun (i : Nat) =>
    satI 16 ((List.range 32).foldl (fun a (k : Nat) => a + h k * atZ x ((i : Int) + (k : Int) - 16)) 0 * n / 2 ^ 28)

/-- Step 5: the cells of at most 8 candidates, in cell order; `lvl` is the candidate level at a cell. -/
def step5 (lvl : Nat → Int) (y : Vals) : List Nat :=
  let c := (List.range 32).filter fun n =>
    decide (1 ≤ n) && decide (n ≤ 30) && decide (at_ y (n - 1) < at_ y n) && decide (at_ y (n + 1) ≤ at_ y n) && decide (lvl n ≤ at_ y n)
  let best := (sortBy (fun n => -(at_ y n)) c).take 8
  c.filter fun n => best.contains n

/-- Twice the curvature term of the interpolation, negative at a candidate. -/
def curv (y : Vals) (n : Nat) : Int := at_ y (n - 1) - 2 * at_ y n + at_ y (n + 1)
def slope (y : Vals) (n : Nat) : Int := at_ y (n - 1) - at_ y (n + 1)

/-- δ in 1/256 cell. -/
def peakShift (y : Vals) (n : Nat) : Int := clampI (-128) 128 (roundDiv (256 * slope y n) (2 * curv y n))

/-- Amplitude in eighths of a code as numerator over denominator (a positive number). -/
def peakAmp (y : Vals) (n : Nat) : Int × Nat :=
  (-(8 * curv y n * at_ y n - slope y n * slope y n), (8 * curv y n).natAbs)

/-- AMP of an amplitude for range tag `r` (e = 3 - r). -/
def ampField (a : Int × Nat) (r : Nat) : Nat :=
  (clampI 0 65535 (roundAway (a.1 * 4096) (a.2 * 8 * 1920 * 4 ^ (3 - r)))).toNat

/-- Time of an upward crossing of level p/q between cells k and k + 1, as a fraction of a cell over a denominator. -/
def crossAt (x : Vals) (k : Nat) (l : Int × Nat) : Int × Int :=
  let d := (at_ x (k + 1) - at_ x k) * l.2
  (k * d + (l.1 - at_ x k * l.2), d)

/-- Cells k with x[k] below the level and x[k+1] at or above it, and the reverse. -/
def upAt (x : Vals) (l : Int × Nat) (k : Nat) : Bool := decide (at_ x k * l.2 < l.1) && decide (l.1 ≤ at_ x (k + 1) * l.2)
def downAt (x : Vals) (l : Int × Nat) (k : Nat) : Bool := decide (l.1 ≤ at_ x k * l.2) && decide (at_ x (k + 1) * l.2 < l.1)

/-- Last upward crossing ending at or before cell n; first downward crossing from cell m on. -/
def lastUp (x : Vals) (l : Int × Nat) (n : Nat) : Option Nat := ((List.range n).filter (upAt x l)).getLast?
def firstDown (x : Vals) (l : Int × Nat) (m : Nat) : Option Nat := ((upto m (31 - m)).filter (downAt x l)).head?

/-- Difference of two crossing times in 25 ps (1/8 cell). -/
def spanField (a b : Int × Int) : Nat := (clampI 0 1022 (roundDiv (8 * (b.1 * a.2 - a.1 * b.2)) (a.2 * b.2))).toNat

/-- Half-amplitude width (step 6). -/
def widthField (x : Vals) (n : Nat) (a : Int × Nat) : Nat :=
  let h := (a.1, 2 * a.2)
  match lastUp x h n, firstDown x h n with
  | some k, some m => spanField (crossAt x k h) (crossAt x m h)
  | _, _ => 1023

/-- Echo time from the first cell's time (u from F), a cell time (numerator, denominator) and an offset in u (R123). -/
def echoTime (first : Int) (t : Int × Int) (off : Int) : Int := roundDiv (first * t.2 + 256 * t.1 + off * t.2) (5 * t.2)

/-- Saturation level: 960 codes in eighths. -/
def satLevel : Int × Nat := (7680, 1)

/-- What steps 6 and 7 need of the template and the window; `first` is the first cell's time from F in u. -/
structure PeakCtx where
  first : Int
  rtag : Nat
  delay : Int
  satDelay : Int
  sat : Bool
  pos : Nat → Bool
  neg : Nat → Bool
  indigo : Bool

/-- A mask bit within 3 cells of n. -/
def near3 (m : Nat → Bool) (n : Nat) : Bool := (List.range 32).any fun i => decide (((i : Int) - n).natAbs ≤ 3) && m i

/-- Steps 6 and 7 for a candidate at cell n. -/
def candidate (c : PeakCtx) (x y : Vals) (n : Nat) : Cand :=
  let a := peakAmp y n
  let low := near3 c.neg n
  let plain : Cand :=
    { e := roundAway (c.first + 256 * n + peakShift y n + c.delay) 5, amp := ampField a c.rtag, width := widthField x n a,
      sat := false, lowconf := low, indigo := c.indigo, rtag := c.rtag }
  if ¬ (c.sat || near3 c.pos n) then plain
  else
    let full := 4096 / 4 ^ (3 - c.rtag)
    let fall := fun (from_ : Nat) (t : Int × Int) => match firstDown x satLevel from_ with
      | some m => spanField t (crossAt x m satLevel)
      | none => 1023
    match lastUp x satLevel n with
    | some k =>
      let t := crossAt x k satLevel
      { plain with e := echoTime c.first t c.satDelay, amp := full, width := fall (k + 1) t, sat := true }
    | none =>
      if 7680 ≤ at_ x 0 then
        { plain with e := echoTime c.first (0, 1) c.satDelay, amp := full, width := fall 0 (0, 1), sat := true, lowconf := true }
      else { plain with sat := true, lowconf := true }

/-- Level of step 5 for a range tag (R143). -/
def candLevel (r : Rd) (g : Grey) (rtag : Nat) : Int :=
  max (candFloor r : Int) (roundAway (candK r * g.sigY * 4 ^ g.rg : Nat) (16 * 4 ^ rtag))

/-- A stacked cell's level: L / √n, rounded to the nearest eighth, 1 at least (R172); a tie of an irrational cannot
occur, so the greatest m with (2m - 1)² n ≤ 4 L² is the rounded value. -/
def stackLevel (l : Int) (n : Nat) : Int :=
  if n = 0 then max 1 l else
    let q := isqrt (4 * l.toNat ^ 2 / n)
    max 1 (((q + 1) / 2 : Nat) : Int)

/-! ### Windows through the chain -/

/-- Segment of a window's cell. -/
def segOf (w : Win) (i : Nat) : Nat := if i < 16 then w.segA else w.segB

/-- Steps 1-3 of a window under a view and its channel's corrections; `unity` takes G = 0x4000. -/
def frontSteps (r : Rd) (x : CalCh) (unity : Bool) (w : Win) : Vals × Vals :=
  let ped := fun i => if pedEn r then pedOf x (segOf w i) (i % 16) else 1024
  let x1 := step1 ped w.codes
  let x2 := if cellwEn r then step2 (fun i => 256 * (i : Int) + deltaOf x (segOf w i) (i % 16)) x1 else x1
  let g := if unity || !gainEn r then 0x4000 else gainOf x w.rtag
  (x1, step3 g x2)

/-- Template of an emitter for a window of range tag `rtag` (R124). -/
def tplOf (r : Rd) (e rtag : Nat) : Nat := if selByRange r e then rtag else selIdx r e

/-- Step 4 under a template; MF_EN = 0 passes x3. -/
def filterStep (r : Rd) (e t : Nat) (x : Vals) : Vals := if mfEn r then step4 (tap r e t) (tplNorm r e t) x else x

/-- Candidates of a window from its x3 and y. -/
def candidates (r : Rd) (e t : Nat) (first : Int) (rtag : Nat) (sat indigo : Bool) (codes : List Nat) (lvl : Nat → Int) (x y : Vals) : List Cand :=
  let c : PeakCtx := ⟨first, rtag, tplDelay r e t, tplSatDelay r e t, sat, maskPos codes, maskNeg codes, indigo⟩
  (step5 lvl y).map (candidate c x y)

end Sys2Proof.Machine
end

