-- ==== Sys2Proof/Machine/Grey.lean ====
section
/-!
DEFINITION. The grey estimate (R139-R145): what a calibration window adds to the frame's sums, and the
estimate a boundary makes of them.
-/

namespace Sys2Proof.Machine

/-- The estimate in force for work of epoch `ep`. -/
def greyAt (s : State) (ep c : Nat) : Grey :=
  match s.eng.oldGreys.find? fun p => p.1 == ep with
  | some p => tget Grey.reset p.2 c
  | none => grey s c

def sumI (l : List Int) : Int := l.foldl (· + ·) 0
def sumSq (l : List Int) : Int := l.foldl (fun a v => a + v * v) 0

/-- The first two tests of R140. -/
def cleanWin (w : Win) : Bool := !w.sat && w.codes.all fun k => !k.testBit 11

/-- The third: every |x1 - mean| within 6 sigma, sigma moved from its range to the window's. -/
def withinSigma (g : Grey) (rtag : Nat) (x1 : Vals) : Bool :=
  let m := sumI x1
  x1.all fun v => decide ((32 * v - m).natAbs * 4 ^ rtag ≤ 192 * g.sigX * 4 ^ g.rg)

/-- A window joins the frame's sums, or is rejected (R140). -/
def greyAdd (ok : Bool) (rtag : Nat) (x1 y : Vals) (g : Grey) : Grey :=
  if ok ∧ (g.lastTag = none ∨ g.lastTag = some rtag) then
    { g with n := g.n + 32, sx := g.sx + sumI x1, sxx := g.sxx + sumSq x1, sy := g.sy + sumI y, syy := g.syy + sumSq y,
             lastTag := some rtag }
  else { g with rejects := g.rejects + 1 }

/-- Rounded square root of a / b. -/
def sqrtRatio (a b : Nat) : Nat := if b = 0 then 0 else (isqrt (4 * a / b) + 1) / 2

/-- Standard deviation of n values from their sums, clamped (R140). -/
def sigmaOf (n : Nat) (sx sxx : Int) : Nat :=
  clampN 1 4095 (sqrtRatio ((n : Int) * sxx - sx * sx).toNat (n * (n - 1)))

/-- Sigma moved to range `r` and scaled by (D + D0) / (D_prev + D0); means as sum and number (R141). -/
def sigmaMoved (sig rPrev r : Nat) (d p : Nat × Nat) (d0 : Nat) : Nat :=
  clampN 1 4095 (sqrtRatio (sig * sig * 16 ^ rPrev * (d.1 + d0 * d.2) * p.2) (16 ^ r * d.2 * (p.1 + d0 * p.2)))

/-- Sigma moved to range `r` alone. -/
def sigmaHeld (sig rPrev r : Nat) : Nat := clampN 1 4095 (roundAway (sig * 4 ^ rPrev : Nat) (4 ^ r)).toNat

/-- The estimate of a closed frame (R140, R141): `r` view of that frame, `rng` the range in force, `d` and
`p` the mean DCR of the frame and of the one before. -/
def greyEstimate (r : Rd) (rng : Nat) (d p : Nat × Nat) (g : Grey) : Grey :=
  if 32 * greyMin r ≤ g.n then
    { g with sigX := sigmaOf g.n g.sx g.sxx, sigY := sigmaOf g.n g.sy g.syy, rg := g.lastTag.getD rng, src := 0 }
  else if g.src = 2 then { g with sigX := greyInit r, sigY := greyInit r, rg := rng }
  else if p.1 + dcr0 r * p.2 = 0 then
    { g with sigX := sigmaHeld g.sigX g.rg rng, sigY := sigmaHeld g.sigY g.rg rng, rg := rng, src := 3 }
  else
    { g with sigX := sigmaMoved g.sigX g.rg rng d p (dcr0 r), sigY := sigmaMoved g.sigY g.rg rng d p (dcr0 r), rg := rng, src := 1 }

/-- The sums restart for a new frame. -/
def greyClear (d : Nat × Nat) (g : Grey) : Grey :=
  { g with n := 0, sx := 0, sxx := 0, sy := 0, syy := 0, lastTag := none, rejects := 0, dcrSum := 0, dcrNum := 0,
           dPrevSum := d.1, dPrevNum := d.2 }

/-- The estimate starts anew: at bank power-up and at RUN from ARMED (R141). -/
def greyRestart (r : Rd) (c : Nat) (s : State) : State :=
  cfarAgain c (modGrey c (fun g => greyClear (0, 0) { g with
    sigX := greyInit r, sigY := greyInit r, rg := (front s c).range, src := 2 }) s)

/-- The CFAR code before its clamp lies outside 1-1,023 (R142, R155). -/
def cfarClamps (r : Rd) (c rng : Nat) (x : Grey) : Bool :=
  let v := roundAway (cfarK r (c / 32) * x.sigX * 1024 * 4 ^ x.rg : Nat) (16 * 8 * 1920 * 4 ^ rng)
  decide (v < 1) || decide (1023 < v)

/-- Number of the frame a boundary closes, and of the frame that follows it; outside a boundary the present one. -/
def closedFrame (s : State) : Nat := if s.fire.closes && s.fire.opens then (s.fire.frame + (2 ^ 32 - 1)) % 2 ^ 32 else s.fire.frame
def nextFrame (s : State) : Nat := if s.fire.closes && !s.fire.opens then (s.fire.frame + 1) % 2 ^ 32 else s.fire.frame

/-- Channels of powered banks. -/
def poweredChans (s : State) : List Nat := (List.range 256).filter fun c => domUp s (inputDom c)

/-- The channel's word of GREYSTAT as its estimate stands (R145). -/
def greyNow (g : Grey) : Nat := put g.src 2 30 + put g.rg 2 28 + put g.thr 10 18 + put g.sigX 12 6

/-- A boundary writes the channel's word. -/
def greyWrite (c : Nat) (s : State) : State := modGrey c (fun g => { g with word := greyNow g }) s

/-- The boundary that opens RUN from HOLD closes no frame: the sums restart, and the estimate stands (R152). -/
def greyReopen (c : Nat) (s : State) : State :=
  cfarAgain c (modGrey c (fun g => greyClear (g.dPrevSum, g.dPrevNum) g) s)

/-- One channel's estimate at the boundary that closes a frame. A mean over no DCR reading is a free value. -/
def greyClose (r0 : Rd) (c : Nat) (s : State) : State :=
  let g := grey s c
  let f := takeFree 12 s
  let d := if g.dcrNum = 0 then (f.1, 1) else (g.dcrSum, g.dcrNum)
  let s1 := if g.dcrNum = 0 then f.2 else s
  let p := if g.dPrevNum = 0 then (0, 1) else (g.dPrevSum, g.dPrevNum)
  cfarAgain c (modGrey c (fun g => greyClear d (greyEstimate r0 (front s c).range d p g)) s1)

/-- The ambient image record of the frame just closed (R144). -/
def ambientBytes (s : State) (frame : Nat) : List Byte :=
  leBytes 4 frame ++ leBytes 1 (devIdx s % 8) ++ leBytes 3 0 ++ leBytes 8 s.fire.gapAt
    ++ (List.range 256).flatMap fun c =>
      let g := grey s c
      leBytes 4 (if domUp s (inputDom c) then
        put ((2 * g.dPrevSum + g.dPrevNum) / (2 * max 1 g.dPrevNum)) 12 20 + put g.rg 2 18 + put g.src 2 16 + put g.sigX 12 0 else 0)

/-- Estimates at CORE's crossing of a boundary's token: `r0` is the view of the closing frame. -/
def greyBoundary (r0 : Rd) (s : State) : State :=
  let s0 := { s with eng := { s.eng with oldGreys := tset [] s.eng.oldGreys (s.cfg.epoch - 1) s.greys } }
  let cs := poweredChans s
  if s.fire.first then each cs (fun c s => greyWrite c (greyRestart (rd s) c s)) s0
  else if s.fire.closes then
    let s1 := each cs (fun c s => greyWrite c (greyClose r0 c s)) s0
    if ambEn r0 then putHist true true true (ambientBytes s1 (closedFrame s1)) s1 else s1
  else if s.fire.opens then each cs (fun c s => greyWrite c (greyReopen c s)) s0
  else each cs cfarAgain s0

/-- GREY_MIN, GREY_MED, GREY_MAX, N_PRED and N_CLAMP (R155); least, median and greatest of no channel are free. -/
def greyHeader (s : State) : (Nat × Nat × Nat × Nat × Nat) × State :=
  let cs := poweredChans s
  let v : List Nat := sortBy (fun (n : Nat) => (n : Int)) (cs.map fun c => min 65535 ((grey s c).sigX * 4 ^ (grey s c).rg))
  let np := (cs.filter fun c => (grey s c).src != 0).length
  let nc := (cs.filter fun c => cfarClamps (rd s) c (front s c).range (grey s c)).length
  if v = [] then
    let a := takeFree 16 s; let b := takeFree 16 a.2; let c := takeFree 16 b.2
    ((a.1, b.1, c.1, np, nc), c.2)
  else ((v.headD 0, v.getD ((v.length - 1) / 2) 0, v.getLastD 0, np, nc), s)

/-- A calibration window's steps reach the grey estimate and the pedestal sums (R140, R186). -/
def greyTake (ep : Nat) (w : Win) (x1 y : Vals) (emitted : Bool) (s : State) : State :=
  let ok := cleanWin w && (decide (256 ≤ w.ch) || withinSigma (greyAt s ep w.ch) w.rtag x1)
  let s1 := if ok then pedAdd w.ch w.segA w.segB (w.codes.map (· % 2048)) s else s
  if w.ch < 256 ∧ emitted then modGrey w.ch (greyAdd ok w.rtag x1 y) s1 else s1

end Sys2Proof.Machine
end

