-- ==== Sys2Proof/Machine/Stack.lean ====
section
/-!
DEFINITION. Stack memory (R157-R176): direction bins, histograms and their spills, the peak table, gate
placement, and shot stacks up to the stacked window.
-/

namespace Sys2Proof.Machine

/-- Direction bin of an angle (R159). -/
def dirBin (r : Rd) (angle : Nat) : Nat := angle % 2 ^ 24 / 2 ^ (24 - dirBits r)

/-- Key of a channel's histogram of a direction bin. -/
def hkey (c d : Nat) : Nat := 128 * c + d

/-- Histograms of a set; sets that fit; a bank is histogrammed; sets exceed the slots (R162). -/
def histH (r : Rd) : Nat := 32 * popBits 8 (histBanks r)
def histR (r : Rd) : Nat := 3456 / histH r
def histOn (r : Rd) : Bool := histEn r && histBanks r != 0
def bankHist (r : Rd) (b : Nat) : Bool := histOn r && (histBanks r).testBit b
def sweeps (r : Rd) : Bool := histOn r && decide (histR r < 2 ^ dirBits r)

/-- D14 is up and a boundary has passed since (R419). -/
def stkLive (s : State) : Bool := domUp s 14 && s.stk.live

def histOf (s : State) (k : Nat) : Hist := tget Hist.empty s.stk.hists k
def peaksOf (s : State) (k : Nat) : Peaks := tget Peaks.empty s.stk.peaks k

/-! ### Spills (R163, R164) -/

/-- HIST's records wait for stream credits: frames of the stream stand unsent. -/
def histBlocked (s : State) : Bool := streamOn s 2 && !(tget [] s.link.ready 2).isEmpty

/-- Spills go to the station stacks (R166, R383). -/
def stationsOn (s : State) : Bool := domUp s 17 && s.arch.mounted && !s.arch.suspended && s.arch.running.contains 3

/-- Channels of histogrammed banks, and the keys of a direction's set. -/
def histChans (r : Rd) : List Nat := (List.range 256).filter fun c => (histBanks r).testBit (c / 32)
def setKeys (r : Rd) (d : Nat) : List Nat := (histChans r).map fun c => hkey c d

/-- Keys of every histogram held under view `r`: of the held sets, or of every direction. -/
def heldKeys (r : Rd) (s : State) : List Nat :=
  (if sweeps r then sortBy (fun (d : Nat) => (d : Int)) s.stk.sets else List.range (2 ^ dirBits r)).flatMap (setKeys r)

/-- What a spill takes of a histogram as it begins. -/
def spillItem (r : Rd) (geom : Nat → Bool) (s : State) (k : Nat) : SpillItem :=
  let b := k / 128 / 32
  ⟨k, binK r b, zoomOf r b, geom b, histOf s k⟩

/-- A histogram that a spill has taken starts afresh in frame `fn`; echoes outside its zoom wait for a record (R160, R164). -/
def restarted (fn : Nat) (h : Hist) : Hist := { Hist.empty with oor := if h.echoes = 0 then h.oor else 0, freshIn := some fn }

/-- Spill the histograms of `keys` under view `r` as begun in frame `fb`, behind the spills in hand; an evicted set leaves its
slots, the others start afresh in frame `fn`. -/
def startSpill (r : Rd) (reason fb fn : Nat) (victim : Option Nat) (closed : Bool) (geom : Nat → Bool) (keys : List Nat) (s : State) : State :=
  let q : Spill := ⟨spillTo r, stationNo r, keys.map (spillItem r geom s), reason, fb, s.sys.now, none, victim, closed⟩
  let hists := s.stk.hists.filterMap fun p =>
    if ¬ keys.contains p.1 then some p else if victim.isSome then none else some (p.1, restarted fn p.2)
  { s with stk := { s.stk with hists := hists, spills := s.stk.spills ++ [q] } }

/-- A spilled histogram bound for the archive: dropped where it cannot be merged (R166). -/
def toMerge (q : Spill) (i : SpillItem) (s : State) : State :=
  if stationsOn s then
    let m : Merge := ⟨q.station, i.key / 128, i.key % 128, i.binK, i.zoom, i.h.firstFrame, i.h.lastFrame, i.h.echoes, i.h.bins⟩
    { s with stk := { s.stk with merges := s.stk.merges ++ [m] } }
  else { s with stk := { s.stk with stDrop := satAdd 16 s.stk.stDrop 1 } }

/-- One histogram goes where STACK.SPILL sends it; one without a counted echo gives no record. -/
def putSpill (q : Spill) (i : SpillItem) (s : State) : State :=
  if i.h.echoes = 0 then s
  else
    let s1 := if q.dest.testBit 0 then
        putHist false true true (spillBytes (devIdx s) q.frame q.reason (i.key % 128) (i.key / 128) i.binK i.zoom i.geom i.h) s
      else s
    if q.dest.testBit 1 then toMerge q i s1 else s1

/-- A histogram's record finds no room: HIST stands unsent, or the one before it still waits for its merge (log entry 42). -/
def spillBlocked (q : Spill) (i : SpillItem) (s : State) : Bool :=
  i.h.echoes != 0 && ((q.dest.testBit 0 && histBlocked s) || (q.dest.testBit 1 && stationsOn s && !s.stk.merges.isEmpty))

def setSpills (l : List Spill) (s : State) : State := { s with stk := { s.stk with spills := l } }

/-- The first histogram's record leaves, and the next is read from `t` on. -/
def spillPut (t : Nat) (s : State) : State :=
  match s.stk.spills with
  | q :: rest => (match q.items with
    | i :: r => putSpill q i (setSpills ({ q with items := r, readAt := t, since := none } :: rest) s)
    | [] => s)
  | [] => s

/-- A spill that has read its last histogram ends: an evicted set becomes the free one, and the next spill begins (R162). -/
def spillEnd (s : State) : State :=
  match s.stk.spills with
  | q :: rest =>
    let s1 := setSpills (match rest with | n :: r => { n with readAt := q.readAt } :: r | [] => []) s
    if q.victim.isSome then { s1 with stk := { s1.stk with freeIdle := true } } else s1
  | [] => s

/-- The spill unit as far as time has brought it, in `n` steps at most: 64 ns for a histogram, a pause where a record waits. -/
def spillRun : Nat → State → State
  | 0, s => s
  | n + 1, s =>
    match s.stk.spills with
    | [] => s
    | q :: rest =>
      match q.items with
      | [] => spillRun n (spillEnd s)
      | i :: _ =>
        let t := q.readAt + 320
        if q.since.isSome ∨ s.sys.now < t then s
        else if spillBlocked q i s then setSpills ({ q with since := some (max (t / 5000) s.stk.waitNext) } :: rest) s
        else spillRun n (spillPut t s)

def spillSync (s : State) : State := spillRun ((s.stk.spills.map fun q => q.items.length + 1).foldl (· + ·) 0) s

/-- SPILL_WAIT: the µs spent waiting, those of a wait in progress among them (R163). -/
def waitCount (s : State) : Nat :=
  match s.stk.spills.head?.bind fun q => q.since with
  | some t => satAdd 32 s.stk.spillWait ((s.sys.now + 4999) / 5000 - t)
  | none => s.stk.spillWait

/-- SPILL_COMPLETE: time passes until the spill in hand has read its set, or its record waits. -/
def execSpillComplete (s : State) : Out :=
  .next (let s1 := spillSync s
    match s1.stk.spills with
    | q :: _ => if q.since.isSome then s1 else spillSync (advNow (q.readAt + 320 * q.items.length) s1)
    | [] => s1)

/-- SPILL_RESUME: the spill that waited goes on, and its wait is counted in µs (R163). -/
def execSpillResume (s : State) : Out :=
  .next (let s1 := spillSync s
    match s1.stk.spills with
    | q :: rest =>
      (match q.items with
      | i :: _ =>
        if q.since.isNone ∨ spillBlocked q i s1 then s1
        else spillPut s1.sys.now (setSpills (q :: rest) { s1 with stk := { s1.stk with spillWait := waitCount s1, waitNext := (s1.sys.now + 4999) / 5000 } })
      | [] => s1)
    | [] => s1)

/-! ### Counting (R160-R162, R167) -/

/-- Version of the peak table the predictor reads in frame `f`: the newest tagged before it. -/
def readVersion (s : State) (k f : Nat) : Option Nat :=
  let ok := fun v => (peaksOf s (2 * k + v)).valid && decide ((peaksOf s (2 * k + v)).tag < f)
  if ok 0 && ok 1 then some (if (peaksOf s (2 * k)).tag < (peaksOf s (2 * k + 1)).tag then 1 else 0)
  else if ok 0 then some 0 else if ok 1 then some 1 else none

/-- Version that counting in frame `f` writes. -/
def writeVersion (s : State) (k f : Nat) : Nat :=
  match readVersion s k f with
  | some v => 1 - v
  | none => if (peaksOf s (2 * k + 1)).valid && (peaksOf s (2 * k + 1)).tag == f && !((peaksOf s (2 * k)).valid && (peaksOf s (2 * k)).tag == f) then 1 else 0

/-- Distance of two bins. -/
def binDist (a b : Nat) : Nat := ((a : Int) - b).natAbs

/-- The entry within 2 bins that is nearest, the lower bin on a tie. -/
def nearEntry (i : Nat) (l : List (Nat × Nat)) : Option (Nat × Nat) :=
  (sortBy (fun e => ((2 * binDist e.1 i + b2n (decide (i < e.1)) : Nat) : Int)) (l.filter fun e => decide (binDist e.1 i ≤ 2))).head?

/-- A counted echo updates a version's entries: bin `i` has count `h`; which of equal least entries yields is free. -/
def peakUpdate (i h free : Nat) (l : List (Nat × Nat)) : List (Nat × Nat) :=
  match nearEntry i l with
  | some e => if e.2 ≤ h then l.map (fun x => if x = e then (i, h) else x) else l
  | none =>
    if l.length < 4 then l ++ [(i, h)]
    else
      let least := l.foldl (fun m e => min m e.2) (l.headD (0, 0)).2
      let ties := l.filter fun e => e.2 == least
      let e := ties.getD (free % max 1 ties.length) (0, 0)
      if least < h then l.map (fun x => if x = e then (i, h) else x) else l

/-- A histogram was started afresh in frame `f`. -/
def bornAt (s : State) (k f : Nat) : Bool :=
  match (histOf s k).freshIn with | some n => n == f | none => s.stk.bornIn == some f

/-- The peak table takes a count of bin `i` at `h`: the frame's first count initialises the version it writes. -/
def peakCount (r : Rd) (k i h : Nat) (s : State) : State :=
  let f := s.fire.frame
  let v := writeVersion s k f
  let p := peaksOf s (2 * k + v)
  let start := if p.valid && p.tag == f then p.entries
    else if bornAt s k f then []
    else match readVersion s k f with | some u => (peaksOf s (2 * k + u)).entries | none => []
  let fr := takeFree 8 s
  let l := if h < minCount r then start else peakUpdate i h fr.1 start
  { fr.2 with stk := { fr.2.stk with peaks := tset Peaks.empty fr.2.stk.peaks (2 * k + v) ⟨f, true, l⟩ } }

/-- An echo's bin under view `r`; none outside the zoom (R160). -/
def binOf (r : Rd) (c tof : Nat) : Option Nat :=
  let i := (tof - zoomOf r (c / 32)) / 2 ^ binK r (c / 32)
  if tof < zoomOf r (c / 32) ∨ 1023 < i then none else some i

/-- A count in bin `i` in frame `f`. -/
def addBin (i f : Nat) (h : Hist) : Hist :=
  let n := tget 0 h.bins i
  { h with
    bins := tset 0 h.bins i (min 65535 (n + 1)), satb := h.satb || decide (65534 ≤ n), echoes := satAdd 32 h.echoes 1
    firstFrame := if h.echoes = 0 then f else h.firstFrame, lastFrame := f }

/-- Bins already read of item `j` of spill `n`. -/
def binsRead (s : State) (q : Spill) (n j : Nat) : Nat :=
  if n ≠ 0 ∨ j ≠ 0 then 0 else if q.since.isSome then 1024 else 16 * ((s.sys.now - q.readAt) / 5)

/-- The spill and item that bin `i` of histogram `k` still belongs to, being not yet read (R163). -/
def unreadIn (s : State) (k i : Nat) : Option (Nat × Nat) :=
  match (s.stk.spills.zipIdx.filter fun p => p.1.items.any fun x => x.key == k).getLast? with
  | none => none
  | some (q, n) =>
    let j := q.items.findIdx fun x => x.key == k
    if q.closed ∨ i < binsRead s q n j then none else some (n, j)

/-- One echo into its histogram, in the spill that has not yet read its bin or in the next integration. -/
def countBin (r : Rd) (c d tof : Nat) (s : State) : State :=
  let k := hkey c d
  let upd := fun (f : Hist → Hist) => { s with stk := { s.stk with hists := tmod Hist.empty s.stk.hists k f } }
  match binOf r c tof with
  | none => upd fun h => { h with oor := satAdd 32 h.oor 1 }
  | some i =>
    match unreadIn s k i with
    | none =>
      let s1 := upd (addBin i s.fire.frame)
      peakCount r k i (tget 0 (histOf s1 k).bins i) s1
    | some (n, j) =>
      let l := s.stk.spills.modify n fun q => { q with items := q.items.modify j fun x => { x with h := addBin i s.fire.frame x.h } }
      let h := ((l[n]?.bind fun q => q.items[j]?).map fun x => tget 0 x.h.bins i).getD 0
      peakCount r k i h (setSpills l s)

/-- The direction becomes the latest counted. -/
def touchSet (d : Nat) (s : State) : State := { s with stk := { s.stk with sets := remNat s.stk.sets d ++ [d] } }

/-- A set is assigned to a direction, its histograms started afresh. -/
def allotSet (r : Rd) (d : Nat) (s : State) : State :=
  touchSet d { s with stk := { s.stk with hists := (setKeys r d).foldl (fun t k => tset Hist.empty t k { Hist.empty with freshIn := some s.fire.frame }) s.stk.hists } }

/-- In SWEEP mode: into the direction's set, one assigned to it, or the set being spilled; else a miss (R162, R163). -/
def countSweep (r : Rd) (c d tof : Nat) (s : State) : State :=
  let i := binOf r c tof
  if s.stk.sets.contains d then (if i.isSome then touchSet d (countBin r c d tof s) else countBin r c d tof s)
  else if (i.bind (unreadIn s (hkey c d))).isSome then countBin r c d tof s
  else if s.stk.sets.length + 1 < histR r then countBin r c d tof (allotSet r d s)
  else if s.stk.freeIdle then
    let v := s.stk.sets.headD 0
    let s1 := { s with stk := { s.stk with freeIdle := false, sets := remNat s.stk.sets v } }
    countBin r c d tof (allotSet r d (startSpill r 1 s.fire.frame s.fire.frame (some v) false (fun _ => false) (setKeys r v) s1))
  else { s with stk := { s.stk with histMiss := satAdd 32 s.stk.histMiss 1 } }

/-- An echo of channel `c`, direction `d` and ToF `tof` is counted (R160-R162). -/
def countEcho (c d tof : Nat) (s : State) : State :=
  let r := rd s
  if ¬ stkLive s ∨ ¬ bankHist r (c / 32) then s
  else if sweeps r then countSweep r c d tof (spillSync s) else countBin r c d tof (spillSync s)

/-! ### Gates (R168-R170) -/

/-- D_ch of a frame (R97). -/
def delayOf (s : State) (frame c : Nat) : Int := tget 320 (tget [] s.cal.delays frame) c

/-- LSB of 3.90625 ps to cycles, rounded. -/
def lsbCycles (v : Int) : Int := roundAway (v * 10) 512

/-- Peak gates of a channel at its shot's code step: index and predicted time. -/
def peakTimes (r : Rd) (s : State) (frame c d : Nat) : List (Nat × Int) :=
  if ¬ bankHist r (c / 32) then []
  else match readVersion s (hkey c d) frame with
    | none => []
    | some v =>
      let b := c / 32
      let p := sortBy (fun e => -(2048 * (e.2 : Int)) + e.1) ((peaksOf s (2 * hkey c d + v)).entries.filter fun e => decide (minCount r ≤ e.2))
      (p.take (min (peakGates r) (if nbEn r then 3 else 4))).zipIdx.map fun e =>
        (e.2, ((zoomOf r b + e.1.1 * 2 ^ binK r b + 2 ^ binK r b / 2 : Nat) : Int))

/-- Gates of a shot of view `r` (R168); a cycle is 51.2 LSB and FINE an eighth of one. -/
def placeGates (r : Rd) (s : State) (x : Shot) : List Gate :=
  if ¬ predEn r ∨ ¬ stkLive s then []
  else x.group.flatMap fun c => (peakTimes r s x.frame c x.dir).map fun p =>
    let sr := if x.sin < 4 then (emit s x.em).sRef.getD (sinNom r x.sin) else 0
    let st := if x.sin < 4 then delayOf s x.frame (256 + x.sin) else 0
    ⟨c, p.1, ((x.fcyc : Int) + roundAway (64 * x.fine + 10 * (p.2 + sr + delayOf s x.frame c - st)) 512 + gateOffset r).toNat, p.2⟩

/-- Gate `i` is stacked under view `r` (R170). -/
def stacked (r : Rd) (i : Nat) : Bool := decide (2 ≤ stackK r i) && !(nbEn r && i == 3)

def modStack (f : Stack → Stack) (s : State) : State := { s with stk := { s.stk with openStacks := s.stk.openStacks.map f } }

/-- A shot of an open stack's emitter is classed at its code step (R171). -/
def classStack (r : Rd) (x : Shot) (k : Stack) : Stack :=
  if k.claim.isSome ∨ k.em ≠ x.em then k
  else match x.gates.find? fun g => g.ch == k.ch && g.idx == k.idx with
    | some g =>
      if x.dir = k.dir ∧ (g.t - k.t).natAbs ≤ alignTol r ∧ stacked r k.idx then
        { k with count := k.count + 1, owed := k.owed ++ [x.sid], claim := if stackK r k.idx ≤ k.count + 1 then some x.sid else none }
      else { k with claim := some x.sid }
    | none => { k with claim := some x.sid }

/-- Stacks that a shot has completed or closed add to its group's windows; those it closed it may not open (R171, R172). -/
def claimStacks (r : Rd) (sid : Nat) (s : State) : State :=
  match shotOf s sid with
  | none => s
  | some x =>
    let after := s.stk.openStacks.map (classStack r x)
    let new := (s.stk.openStacks.zip after).filter fun p => p.1.claim.isNone && p.2.claim.isSome
    let closed := (new.filter fun p => !p.2.owed.contains sid).map fun p => (p.1.ch, p.1.idx)
    modShot sid (fun x => { x with claimed := x.claimed + new.length, noOpen := x.noOpen ++ closed }) { s with stk := { s.stk with openStacks := after } }

/-- Components held for all stacks (R157, R170). -/
def compCount (s : State) : Nat := s.stk.openStacks.foldl (fun n k => n + k.comps.length) 0

def stkMissed (s : State) : State := { s with stk := { s.stk with stkMiss := satAdd 16 s.stk.stkMiss 1 } }

/-- A component's record: `x3` of a window claimed by shot `x` for gate `g`. -/
def compOf (x : Shot) (g : Gate) (w : Win) (x3 : Vals) : Comp :=
  ⟨x.sid, (g.g : Int) - w.first, x3, if x.sin < 4 then x.s else some 0, w.sat, w.rtag⟩

/-- A stack opens with a component; shots of its emitter already past their code step are classed against it. -/
def openStack (r : Rd) (x : Shot) (g : Gate) (k : Comp) (s : State) : State :=
  let st : Stack := ⟨g.ch, g.idx, x.em, x.dir, k.rtag, g.t, fromFire x g.g, 1, [k], [], none⟩
  let s1 := { s with stk := { s.stk with openStacks := s.stk.openStacks ++ [st] } }
  let later := s1.fire.shots.filter fun y => y.em == x.em && decide (x.sid < y.sid) && !y.released
  each later (fun y s =>
    match s.stk.openStacks.reverse with
    | t :: rest =>
      let t1 := if t.ch = g.ch ∧ t.idx = g.idx then classStack r y t else t
      let s2 := { s with stk := { s.stk with openStacks := rest.reverse ++ [t1] } }
      if t.claim.isNone && t1.claim.isSome then
        modShot y.sid (fun y => { y with claimed := y.claimed + 1, noOpen := if t1.owed.contains y.sid then y.noOpen else y.noOpen ++ [(g.ch, g.idx)] }) s2
      else s2
    | [] => s) s1

/-- A component arrives with another range tag: its stack closes at its shot `x`. What later shots counted of it, or closed
of it, is undone: they are classed against the next stack (R171). -/
def closeAt (x : Shot) (t : Stack) (s : State) : State :=
  let s1 := modStack (fun u => if u = t then { u with owed := u.owed.filter fun n => decide (n < x.sid), claim := some x.sid } else u) s
  let s2 := match t.claim with
    | some m => modShot m (fun y => { y with claimed := y.claimed - 1 }) s1
    | none => s1
  modShots (fun y => if x.sid < y.sid then { y with noOpen := y.noOpen.erase (t.ch, t.idx) } else y)
    (modShot x.sid (fun y => { y with claimed := y.claimed + 1 }) s2)

/-- A component opens the next stack of its key where none is open and its shot may open one; without room it is not accepted. -/
def openNext (r : Rd) (x : Shot) (g : Gate) (k : Comp) (s : State) : State :=
  if s.stk.openStacks.any (fun u => u.ch == g.ch && u.idx == g.idx && u.claim.isNone) ∨ x.noOpen.contains (g.ch, g.idx) then s
  else if 1792 ≤ compCount s then stkMissed s else openStack r x g k s

/-- A component arrives at hand-off (R170, R171). -/
def takeComp (r : Rd) (x : Shot) (g : Gate) (k : Comp) (s : State) : State :=
  match s.stk.openStacks.find? fun t => t.ch == g.ch && t.idx == g.idx && t.em == x.em && t.owed.contains x.sid with
  | none => openNext r x g k s
  | some t =>
    if t.rtag ≠ k.rtag then openNext r x g k (closeAt x t s)
    else if 1792 ≤ compCount s then stkMissed (modStack (fun u => if u = t then { u with owed := remNat u.owed x.sid } else u) s)
    else modStack (fun u => if u = t then { u with owed := remNat u.owed x.sid, comps := u.comps ++ [k] } else u) s

/-- The window of a component shot may still be handed over. -/
def gateLive (s : State) (c i sid : Nat) : Bool :=
  (s.samp.gateReqs.any fun q => q.1 == c && q.2.1 == i && q.2.2.2 == sid) ||
  (s.samp.reqs.any fun q => q.ch == c && q.kind == .indigo && q.sid == some sid) ||
  s.samp.wins.any fun w => w.ch == c && !w.handed && w.gateSid == some sid

/-- Components that reach stacked cell `i`, with their values (R172). -/
def reaching (l : List Comp) (i : Nat) : List Int :=
  l.filterMap fun k =>
    let j := (i : Int) - 16 + k.gateCell
    if 0 ≤ j ∧ j < 32 then some (at_ k.x j.toNat) else none

/-- The stacked window of a stack with components. -/
def formWindow (k : Stack) (sid depth : Nat) : StkWin :=
  { ch := k.ch, idx := k.idx, sid := sid, dir := k.dir, rtag := k.rtag, first := 32 * (k.goff - 8 * 16)
    x := (List.range 32).map fun i => let l := reaching k.comps i; if l = [] then 0 else roundAway (sumI l) l.length
    cnt := (List.range 32).map fun i => (reaching k.comps i).length
    sat := k.comps.any fun q => q.sat
    s := roundAway (sumI (k.comps.map fun q => q.s.getD 0)) k.comps.length
    short := decide (k.comps.length < depth) }

/-! ### The neighbour gate (R169) -/

/-- The neighbour gate on `c` of a trigger of shot `x` on `n` at `t`. -/
def nbGate (r : Rd) (s : State) (x : Shot) (n t c : Nat) : Nat :=
  let far := 2 * (n : Int) - c
  let v : Int := if far < 0 ∨ 255 < far ∨ ¬ x.group.contains far.toNat then 0
    else match (x.trigs.filter fun p => p.1 == far.toNat && decide (p.2 ≤ t) && decide (t ≤ p.2 + velLim r)).getLast? with
      | some p => (t : Int) - p.2
      | none => 0
  ((t : Int) + lsbCycles (delayOf s x.frame c - delayOf s x.frame n) + v).toNat

/-- A trigger on `n` at `t` that asks for a park places gate 3 on its neighbours, once for each shot. -/
def neighbourGates (n t : Nat) (s : State) : State :=
  if ¬ nbEn (rd s) ∨ ¬ stkLive s then s
  else each (s.fire.shots.filter fun x => x.group.contains n && inListen x t) (fun x s =>
    each ((if n = 0 then [] else [n - 1]) ++ (if n < 255 then [n + 1] else [])) (fun c s =>
      match shotOf s x.sid with
      | none => s
      | some y =>
        if ¬ y.group.contains c ∨ y.nbDone.contains c then s
        else
          let g := nbGate (rd s) s y n t c
          modShot y.sid (fun z => { z with nbDone := z.nbDone ++ [c], gates := z.gates ++ [⟨c, 3, g, 0⟩] })
            { s with samp := { s.samp with gateReqs := s.samp.gateReqs ++ [(c, 3, g, y.sid)] } }) s) s

/-! ### Boundaries and power -/

/-- Everything D14 holds is gone (R158, R171); a spill's wait ends counted. -/
def stkPowerOff (s : State) : State :=
  let s1 := discardStacks (fun _ => true) { s with stk := { s.stk with spillWait := waitCount s } }
  { s1 with stk := { s1.stk with hists := [], sets := [], freeIdle := true, spills := [], bornIn := none, merges := [], peaks := [], framesSince := 0 } }

/-- D14 comes up: the whole memory is clear (R158); the counters of STACKSTAT stand. -/
def stkPowerOn (s : State) : State :=
  { s with stk := { Stk.reset with
    histMiss := s.stk.histMiss, stkDone := s.stk.stkDone, stkMiss := s.stk.stkMiss, stkDisc := s.stk.stkDisc
    stMismatch := s.stk.stMismatch, stDrop := s.stk.stDrop, spillWait := waitCount s, waitNext := s.stk.waitNext } }

/-- What CORE's crossing does to stack memory: geometry changes and integration ends spill; MODE and SETS are set
(R162). `r0` is the old view. -/
def stkBoundary (r0 : Rd) (s : State) : State :=
  let r := rd s
  if ¬ domUp s 14 then s
  else
    let geom := fun b => binK r b != binK r0 b || zoomOf r b != zoomOf r0 b
    let all := dirBits r != dirBits r0 || histBanks r != histBanks r0
    let n := if s.fire.closes then s.stk.framesSince + 1 else s.stk.framesSince
    let integ := s.fire.closes && histOn r0 && !sweeps r0 && decide (integFrames r0 ≤ n)
    let s0 := spillSync s
    let spill := fun closed keys => startSpill r0 0 (closedFrame s0) (nextFrame s0) none closed geom keys s0
    let s1 :=
      if ¬ histOn r0 then s0
      else if all ∨ integ then spill (all || (List.range 8).any geom) (heldKeys r0 s0)
      else if (List.range 8).any geom then spill true ((heldKeys r0 s0).filter fun k => geom (k / 128 / 32))
      else s0
    let anew := all || !histOn r || !histOn r0
    let s2 := { s1 with stk := { s1.stk with
      hists := if anew then [] else s1.stk.hists
      bornIn := if anew || integ then some (nextFrame s0) else s1.stk.bornIn
      sets := if anew then [] else s1.stk.sets
      freeIdle := s1.stk.freeIdle || all
      peaks := s1.stk.peaks.filter fun p => !geom (p.1 / 256 / 32)
      framesSince := if all ∨ integ then 0 else n
      sweep := sweeps r
      setsHeld := if ¬ histOn r then 0 else if sweeps r then histR r else 2 ^ dirBits r
      live := true } }
    discardStacks (fun k => k.claim.isNone && !emEn r k.em) s2

/-! ### Command -/

/-- STACKED_WINDOW_ENTER's window, or the discard of a stack with too few components: once every component shot has been handed
over, and the S of each is known (R172; log entry 129). The window is returned for its home queue. -/
def takeStacked (c i : Nat) (s : State) : Option StkWin × State :=
  match s.stk.openStacks.find? fun k => k.ch == c && k.idx == i && k.claim.isSome with
  | none => (none, s)
  | some k =>
    if k.owed.any (gateLive s c i) ∨ k.comps.any (fun q => q.s.isNone) then (none, s)
    else
      let r := rd s
      if k.comps.length < stackKMin r then (none, discardStacks (fun u => u == k) s)
      else
        (some (formWindow k (k.claim.getD 0) (stackK r i)),
         { s with stk := { s.stk with openStacks := s.stk.openStacks.erase k, stkDone := wrapAdd 32 s.stk.stkDone 1 } })

end Sys2Proof.Machine
end

