-- ==== Sys2Proof/Machine/Wire.lean ====
section
/-!
DEFINITION. Packets as bytes, the command buffer, the reply slots, and how the supervisor's interpreter
takes requests: the checks common to every opcode, forwarding over the ring and the answers the ports
themselves call for (R286, R289, R310-R318, R324, R354, R395, R489).
-/

namespace Sys2Proof.Machine

/-! ### Bytes of packets (R310-R313) -/

/-- HDRCHK: with it the header's bytes sum to 0 modulo 256. -/
def hdrChk (h : List Byte) : Byte := BitVec.ofNat 8 (256 - h.foldl (fun a b => a + b.toNat) 0 % 256)

/-- Header of a packet: SYNC, OPC, SEQ, byte 3, LEN, byte 6, HDRCHK. -/
def header (sync opc seq b3 b6 : Byte) (len : Nat) : List Byte :=
  let h := [sync, opc, seq, b3] ++ leBytes 2 len ++ [b6]
  h ++ [hdrChk h]

/-- A packet. -/
def packet (sync opc seq b3 b6 : Byte) (pay : List Word) : List Byte :=
  let p := header sync opc seq b3 b6 pay.length ++ bytesOf pay
  p ++ leBytes 4 (crc32c p)

/-- A reply as the port shifts it (R312). -/
def replyBytes (r : Reply) : List Byte := packet 0x6C r.opc r.seq r.status r.src r.payload

/-- A request's bytes; a request damaged on its way carries another CRC. -/
def requestBytes (opc : Byte) (q : Req) : List Byte :=
  let p := packet 0xC6 opc q.seq q.flags q.dest q.payload
  if q.crcOk then p else p.take (8 + 4 * q.payload.length) ++ leBytes 4 (crc32c (p.take (8 + 4 * q.payload.length)) ^^^ 1)

/-- SYNC and HDRCHK of a request header are right. -/
def headerOk (b : List Byte) : Bool :=
  decide (8 ≤ b.length) && b.getD 0 0 == 0xC6 && decide ((b.take 8).foldl (fun a x => a + x.toNat) 0 % 256 = 0)

/-- LEN of a header. -/
def hdrLen (b : List Byte) : Nat := ofLe [b.getD 4 0, b.getD 5 0]

/-- CRC of a whole packet is right. -/
def packetCrcOk (b : List Byte) : Bool :=
  let n := 8 + 4 * hdrLen b
  decide (ofLe ((b.drop n).take 4) = crc32c (b.take n))

/-! ### Command buffer (R289, R489) -/

def bufBytes : Nat := 16384
def bufUsed (s : State) : Nat := s.port.buf.foldl (fun n e => n + e.bytes.length) 0
def bufFree (s : State) : Nat := bufBytes - bufUsed s
/-- SPACE of the status byte: room for the largest request. -/
def bufSpace (s : State) : Bool := decide (4108 ≤ bufFree s)

/-- An entry at the end of the buffer. -/
def bufAdd (e : CmdEntry) (s : State) : State := { s with port := { s.port with buf := s.port.buf ++ [e] } }

/-- A whole packet enters, where there is room for it. -/
def bufPacket (org : Origin) (b : List Byte) (s : State) : State :=
  if b.length ≤ bufFree s then bufAdd ⟨b, none, org⟩ s else s

/-- A short entry that the port calls for: its status, and OPC and SEQ of the header. -/
def bufOwn (org : Origin) (st : Nat) (b : List Byte) (s : State) : State :=
  bufAdd ⟨[], some (BitVec.ofNat 8 st, b.getD 1 0, b.getD 2 0), org⟩ s

/-- The entry is this request. -/
def entryIs (opc : Byte) (q : Req) (e : CmdEntry) : Bool :=
  e.own.isNone && e.org == q.org && e.bytes.take (8 + 4 * q.payload.length) == (requestBytes opc q).take (8 + 4 * q.payload.length)
    && decide (e.bytes.length = 12 + 4 * q.payload.length) && packetCrcOk e.bytes == q.crcOk

/-! ### Forwarding over the ring (R316, R395) -/

/-- The PKT messages of a packet: 8 bytes each. -/
def pktMsgs (src dst : Nat) : Nat → List Byte → List RingMsg
  | 0, _ => []
  | n + 1, b => if b = [] then [] else .pkt src dst (b.take 8) (decide (b.length ≤ 8)) :: pktMsgs src dst n (b.drop 8)

/-- A packet goes out on the ring. -/
def ringPacket (dst : Nat) (b : List Byte) (s : State) : State :=
  { s with casc := { s.casc with out := s.casc.out ++ pktMsgs (devIdx s) dst (b.length / 8 + 1) b } }

/-- Requests executed on this device whose replies are still owed (R315, R321). -/
def ownBusy (s : State) : Bool :=
  s.pwr.req.isSome || s.link.laneReq.isSome || s.upd.confirmReq.isSome || (match s.sys.timeSet with | some p => p.2.org != .ring | none => false) || (match s.casc.enumReq with | some (_, p) => !p | none => false)
    || [s.axA, s.axB].any fun a => match a.pendMode with | some m => m.req.isSome && !m.pended | none => false

/-- Replies of a forwarded request leave in ascending index, as slots come free. -/
def flushFwd : Nat → State → State
  | 0, s => s
  | n + 1, s =>
    if ownBusy s ∨ 8 ≤ s.port.replies.length then s
    else match s.casc.fwd with
      | f :: r => (match f.reply with
        | some p =>
          let s1 := { s with casc := { s.casc with fwd := r } }
          flushFwd n (if p.status = 0 ∧ f.req.flags.toNat % 2 = 1 then s1
            else { s1 with port := { s1.port with replies := s1.port.replies ++ [{ p with org := f.req.org }] } })
        | none => s)
      | [] => s

/-- A slave's replies to its master leave on the ring. -/
def ringReplies (s : State) : State :=
  each (s.port.replies.filter fun r => r.org == .ring) (fun r => ringPacket 0 (replyBytes r))
    { s with port := { s.port with replies := s.port.replies.filter fun r => r.org != .ring } }

/-! ### The interpreter -/

/-- The interpreter may take a request: it runs, a reply slot is free and the last request is answered (R289, R315). -/
def canServe (s : State) : Bool :=
  s.sys.rdy && decide (s.port.replies.length < 8) && !ownBusy s && s.casc.fwd.isEmpty

/-- Short entries at the buffer's head are answered (R489). -/
def drainOwn : Nat → State → State
  | 0, s => s
  | n + 1, s =>
    match s.port.buf with
    | e :: r => (match e.own with
      | some (st, opc, seq) =>
        if canServe s then
          drainOwn n
            { s with
              port := { s.port with buf := r, replies := s.port.replies ++ [⟨e.org, opc, seq, st, BitVec.ofNat 8 (devIdx s), []⟩] }
              sys := { s.sys with badCrc := if st = 4 then satAdd 16 s.sys.badCrc 1 else s.sys.badCrc } }
        else s
      | none => s)
    | [] => s

/-- A CTRL frame of the host leaves the link's receive buffer: it starts or continues a packet; none where a complete
packet finds no room in the command buffer (R350, R354). -/
def takeFrame (sor : Bool) (b : List Byte) (s : State) : Option State :=
  let gone := fun (rx : Option (List Byte)) (s : State) => { s with link := { s.link with rx := rx, ownCum := wrapAdd 16 s.link.ownCum 1 } }
  let drop := fun (s : State) => { s with link := { s.link with rxDrop := satAdd 16 s.link.rxDrop 1 } }
  match (if sor then some b else s.link.rx.map fun a => a ++ b) with
  | none => some (gone none (drop s))
  | some acc =>
    if acc.length < 8 then some (gone (some acc) s)
    else if ¬ headerOk acc then some (gone none s)
    else if 1024 < hdrLen acc then some (gone none (bufOwn .link 3 acc s))
    else if acc.length < 12 + 4 * hdrLen acc then some (gone (some acc) s)
    else if 12 + 4 * hdrLen acc ≤ bufFree s then some (gone none (bufAdd ⟨acc.take (12 + 4 * hdrLen acc), none, .link⟩ s))
    else none

/-- Held CTRL frames of the host go on as far as there is room. -/
def linkPull : Nat → State → State
  | 0, s => s
  | n + 1, s =>
    match s.link.rxQ with
    | some f :: r => (match takeFrame f.1 f.2 s with
      | some t => linkPull n { t with link := { t.link with rxQ := r } }
      | none => s)
    | none :: r => linkPull n { s with link := { s.link with rxQ := r, rx := none } }
    | [] => s

/-- After a request, an arrival or a freed slot: everything that can move does. -/
def settle (s : State) : State :=
  let s1 := flushFwd 8 (ringReplies s)
  let s2 := drainOwn s1.port.buf.length s1
  let s3 := linkPull s2.link.rxQ.length s2
  ringReplies (drainOwn s3.port.buf.length s3)

/-- Opcodes of R319-R323 that the ROM recovery service serves (R324). -/
def inRecovery (opc : Nat) : Bool := [0x00, 0x01, 0x02, 0x14, 0x60, 0x61, 0x62, 0x65, 0x66, 0x70].contains opc

/-- The other enumerated devices, ascending. -/
def others (s : State) : List Nat := (List.range 8).filter fun k => s.casc.present.contains k && k != devIdx s

/-- Forward a request to devices. -/
def forward (opc : Nat) (q : Req) (ds : List Nat) (s : State) : State :=
  each ds (fun d s => ringPacket d (requestBytes (BitVec.ofNat 8 opc) { q with crcOk := true })
    { s with casc := { s.casc with fwd := s.casc.fwd ++ [⟨d, BitVec.ofNat 8 opc, q, none⟩] } }) s

/-- What a reply beyond those of `s` says: none where there is none. -/
def newStatus (s t : State) : Option Byte := (t.port.replies.drop s.port.replies.length).head?.map fun r => r.status

/-- During an activation a write that would be carried out is answered BUSY (R435). -/
def busyWrite (opc : Nat) (write : Bool) (body : Req → State → State) (q : Req) (s : State) : State :=
  let t := body q s
  if ¬ write ∨ s.upd.act = 0 then t
  else match newStatus s t with
    | some st => if st = 0 ∨ st = 0x0C then replyTo opc q 1 [] s else t
    | none => replyTo opc q 1 [] s

/-- Checks 4 and 5 of R314, then the opcode. -/
def runOpcode (opc : Nat) (write lenOk : Bool) (body : Req → State → State) (q : Req) (s : State) : State :=
  if (if s.sys.devState = .recovery then !inRecovery opc else opc == 0x66) then replyTo opc q 7 [] s
  else if ¬ lenOk then replyTo opc q 3 [] s
  else busyWrite opc write body q s

/-- An order of the master to its slaves: a request from the ring for device 0 (log entry 61). -/
def isOrder (q : Req) (s : State) : Bool := q.org == .ring && isSlave s && decide (q.dest.toNat % 16 = 0)

/-- A request taken from the buffer: checks 1 to 3 of R314, then the opcode here, over the ring, or both (R316). -/
def interpret (opc : Nat) (write lenOk : Bool) (body : Req → State → State) (q : Req) (s : State) : State :=
  let d := q.dest.toNat % 16
  if ¬ q.crcOk then replyTo opc q 4 [] { s with sys := { s.sys with badCrc := satAdd 16 s.sys.badCrc 1 } }
  else if isOrder q s then body q s
  else if d = devIdx s then runOpcode opc write lenOk body q s
  else if d = 15 then
    let t := runOpcode opc write lenOk body q s
    if cascMaster s then forward opc q (others s) t else t
  else if cascMaster s ∧ s.casc.present.contains d then forward opc q [d] s
  else replyTo opc q 13 [] s

/-- A request at the interpreter: served if it stands at the buffer's head, or if the buffer is empty, and the
interpreter may take one; else it waits in the buffer (R289, R315). -/
def serveWith (opc : Byte) (run : Req → State → State) (q : Req) (s : State) : State :=
  match s.port.buf with
  | [] => if canServe s then settle (run q s) else bufPacket q.org (requestBytes opc q) s
  | e :: r =>
    if entryIs opc q e then (if canServe s then settle (run q { s with port := { s.port with buf := r } }) else s)
    else bufPacket q.org (requestBytes opc q) s

/-- A request of a listed opcode. -/
def serve (opc : Nat) (write lenOk : Bool) (body : Req → State → State) (q : Req) (s : State) : State :=
  serveWith (BitVec.ofNat 8 opc) (interpret opc write lenOk body) q s

/-- Word `i` of a payload. -/
def qw (q : Req) (i : Nat) : Word := q.payload.getD i 0

end Sys2Proof.Machine
end

