-- ==== Sys2Proof/Machine/Arch.lean ====
section
/-!
DEFINITION. The archive port (R366-R391): mounts, rings and chunks, checkpoints, station merges, errors,
suspension and wear.
-/

namespace Sys2Proof.Machine

/-! ### Layout (R375, R379, R380) -/

def extBytes : Nat := 2 ^ 26
def chunkRoom : Nat := 131008
def slotBytes : Nat := 131072
/-- First data extent and number of data extents. -/
def dataFirst (a : Arch) : Nat := 8 * a.stSlots + 1
def dataCount (e slots : Nat) : Nat := e - 1 - 8 * slots
/-- Extents a ring may own. -/
def ringQuota (a : Arch) (r : Nat) : Nat := a.quotas.getD r 0 * dataCount a.e a.stSlots / 256
def ringExts (a : Arch) (r : Nat) : Nat := (a.exts.filter fun p => p.2.1 == r).length
def ringOf (s : State) (r : Nat) : Ring := tget Ring.reset s.arch.rings r
def modRing (r : Nat) (f : Ring → Ring) (s : State) : State :=
  { s with arch := { s.arch with rings := tmod Ring.reset s.arch.rings r f } }

def archIrq (s : State) : State := irq 8 s

/-! ### Bytes on the drive (R165, R376, R377, R381) -/

/-- A chunk: its header and its payload. -/
def chunkBytes (s : State) (r ext slot : Nat) (first : Option Nat) (pay : List Byte) : List Byte :=
  let seq := (tget (0, 0, 0, 0) s.arch.exts ext).2.1
  let h := leBytes 4 0x5C0FA5D2 ++ leBytes 4 0x00010000 ++ leBytes 8 seq ++ leBytes 2 slot ++ leBytes 1 r ++ leBytes 1 (devIdx s % 8)
    ++ leBytes 4 pay.length ++ leBytes 2 (first.getD 0xFFFF) ++ leBytes 2 0 ++ leBytes 4 s.sys.frameNo
    ++ leBytes 8 (if domOn s 9 then devtime s else s.sys.devtimeHeld)
    ++ leBytes 8 Config.dieNumber ++ leBytes 12 0
  h ++ leBytes 4 (crc32c (h ++ pay)) ++ pay

/-- The superblock. -/
def superBytes (s : State) : List Byte :=
  let a := s.arch
  let b := leBytes 4 0x5C0FA5B0 ++ leBytes 4 0x00010000 ++ leBytes 8 a.sbSeq ++ leBytes 8 Config.dieNumber ++ leBytes 1 (devIdx s % 8)
    ++ leBytes 1 (if a.lba = 4096 then 12 else 9) ++ leBytes 2 0 ++ leBytes 4 a.e ++ leBytes 1 a.stSlots
    ++ (List.range 3).flatMap (fun i => leBytes 1 (a.quotas.getD i 0)) ++ leBytes 4 0
    ++ (List.range 64).flatMap (fun j => leBytes 4 (match lookupNat a.dir j with | some n => put n 16 0 + 2 ^ 31 | none => 0))
    ++ List.replicate 3796 0
  b ++ leBytes 4 (crc32c b)

/-- A checkpoint of sequence `seq`. -/
def checkpointBytes (seq : Nat) (s : State) : List Byte :=
  let h := leBytes 4 0x5C0FA5C1 ++ leBytes 4 0x00010000 ++ leBytes 8 seq ++ leBytes 8 s.arch.nextSeq ++ List.replicate 36 0
  let es := (List.range s.arch.e).flatMap fun n => match lookupNat s.arch.exts n with
    | some x => leBytes 8 x.2.1 ++ leBytes 1 x.1 ++ leBytes 1 0 ++ leBytes 2 x.2.2.1 ++ leBytes 4 x.2.2.2
    | none => leBytes 8 0 ++ leBytes 1 0xFF ++ leBytes 7 0
  h ++ leBytes 4 (crc32c (h ++ es)) ++ List.replicate 4032 0 ++ es

/-- A station record. -/
def stationBytes (dev : Nat) (m : Merge) (seq spills first last echoes : Nat) (bins : Tab Nat) : List Byte :=
  let h := leBytes 4 seq ++ leBytes 2 m.station ++ leBytes 1 (dev % 8) ++ leBytes 1 m.dir ++ leBytes 2 m.ch ++ leBytes 1 m.binK
    ++ leBytes 1 0 ++ leBytes 4 m.zoom ++ leBytes 4 spills ++ leBytes 4 first ++ leBytes 4 last ++ leBytes 8 echoes ++ List.replicate 24 0
  let b := (List.range 1024).flatMap fun i => leBytes 4 (tget 0 bins i)
  h ++ leBytes 4 (crc32c (h ++ b)) ++ b

/-! ### Commands to the drive (R370, R371, R388) -/

def gib : Nat := 2 ^ 30
def wearSum (s : State) : Nat := s.arch.buckets.foldl (· + ·) 0

/-- Bytes written are counted, and WAVE is held at the budget. -/
def countBytes (n : Nat) (s : State) : State :=
  if wearBudget (rd s) = 0 ∨ n = 0 then s
  else
    let b := match s.arch.buckets with | [] => [n] | x :: r => (x + n) :: r
    let s1 := { s with arch := { s.arch with buckets := b } }
    if ¬ s.arch.budgetHold ∧ wearBudget (rd s) * gib ≤ wearSum s1 then archIrq { s1 with arch := { s1.arch with budgetHold := true } } else s1

/-- Queue and opcode of a command (R370): an admin command, and which. -/
def nvmeOpcode (u : NvmeUse) : Bool × Nat :=
  match u with
  | .mount .identify _ | .mount .namespaceId _ => (true, 0x06)
  | .mount .features _ => (true, 0x09)
  | .mount .queues step => (true, if step % 2 = 0 then 0x05 else 0x01)
  | .mount .cache _ => (true, 0x0A)
  | .mount .health _ | .health => (true, 0x02)
  | .mount .recover step => (false, if step = 6 then 0x01 else 0x02)
  | .mount .initWrite step => (false, if step = 0 then 0x09 else 0x01)
  | .mount .perst _ | .mount .linkWait _ | .mount .enableWait _ => (true, 0x06)
  | .chunk _ _ _ | .superblock _ | .checkpoint | .mergeWrite _ => (false, 0x01)
  | .dealloc _ => (false, 0x09)
  | .flush1 | .flush2 => (false, 0x00)
  | .mergeRead _ _ => (false, 0x02)

/-- Depth of an I/O queue (R370). -/
def queueDepth (s : State) : Nat := min 256 (s.arch.mqes + 1)

/-- Bytes one command may move of `n`. -/
def oneXfer (s : State) (n : Nat) : Nat := if s.arch.mdts = 0 then n else min n s.arch.mdts

/-- A command goes to the drive: bytes to write and to read there, bytes already read. A transfer longer than MDTS goes in
several commands, each after the last has completed (R370). -/
def archCmd (use : NvmeUse) (addr : Nat) (data : List Byte) (n : Nat) (got : List Byte) (s : State) : State :=
  let w := oneXfer s data.length
  let r := oneXfer s n
  countBytes w { s with arch := { s.arch with
    cmds := s.arch.cmds ++ [⟨s.arch.nextCid, use, addr, data.take w, r, data.drop w, n - r, got, s.sys.now, false⟩]
    nextCid := s.arch.nextCid + 1 } }

/-- A command that writes, or moves nothing. -/
def archIssue (use : NvmeUse) (addr : Nat) (data : List Byte) (s : State) : State := archCmd use addr data 0 [] s

/-- A command that reads. -/
def archRead (use : NvmeUse) (addr n : Nat) (s : State) : State := archCmd use addr [] n [] s

/-- A copy of the superblock is written: LBA 0 first, then the mirror at LBA 8. -/
def writeSuper (use : NvmeUse) (copy : Nat) (s : State) : State := archIssue use (8 * copy * s.arch.lba) (superBytes s) s

/-- The checkpoint after the newest is written into the slot not used last: odd ones into slot A (log entry 67). -/
def writeCheckpoint (use : NvmeUse) (s : State) : State :=
  let n := s.arch.ckSeq + 1
  archIssue use (if n % 2 = 1 then 2 ^ 20 else 5 * 2 ^ 20) (checkpointBytes n s) s

/-! ### Rings (R378, R379, R382) -/

/-- Lowest-numbered free data extent. -/
def freeExt (a : Arch) : Option Nat := (upto (dataFirst a) (dataCount a.e a.stSlots)).find? fun n => (lookupNat a.exts n).isNone

/-- A ring's extent of lowest EXT_SEQ. -/
def oldestExt (a : Arch) (r : Nat) : Option Nat :=
  ((sortBy (fun p => (p.2.2.1 : Int)) (a.exts.filter fun p => p.2.1 == r)).head?).map fun p => p.1

/-- A ring opens an extent: a free one below its quota, else its oldest, deallocated first. -/
def openExt (r : Nat) (s : State) : State :=
  let a := s.arch
  let reuse := !decide (ringExts a r < ringQuota a r)
  match (if reuse then oldestExt a r else freeExt a) with
  | none => s
  | some n =>
    let s1 := modRing r (fun x => { x with ext := some n, slot := 0 })
      { s with arch := { a with exts := tset (0, 0, 0, 0) a.exts n (r, a.nextSeq, 0, s.sys.frameNo), nextSeq := a.nextSeq + 1 } }
    if reuse then archIssue (.dealloc n) (n * extBytes) [] s1 else s1

/-- Bytes rounded up to whole logical blocks. -/
def padLba (lba : Nat) (b : List Byte) : List Byte := b ++ List.replicate ((lba - b.length % max 1 lba) % max 1 lba) 0

/-- The ring's open chunk is written and the ring goes on in the next slot. -/
def writeChunk (r : Nat) (s0 : State) : State :=
  let s := if (ringOf s0 r).ext.isNone then openExt r s0 else s0
  let x := ringOf s r
  match x.ext with
  | none => s
  | some n =>
    let b := padLba s.arch.lba (chunkBytes s r n x.slot x.first x.buf)
    let s1 := modRing r (fun x => { x with ext := if x.slot = 511 then none else some n, slot := if x.slot = 511 then 0 else x.slot + 1, buf := [], first := none }) s
    if s.arch.cmds.any fun c => c.use == .dealloc n then { s1 with arch := { s1.arch with staged := s1.arch.staged ++ [(r, n, x.slot, b)] } }
    else archIssue (.chunk r n x.slot) (n * extBytes + x.slot * slotBytes) b s1

/-- Bytes of an item run into the ring's chunks. -/
def fillChunks (r : Nat) : Nat → List Byte → State → State
  | 0, _, s => s
  | n + 1, b, s =>
    let room := chunkRoom - (ringOf s r).buf.length
    let add := fun (b : List Byte) => modRing r (fun x =>
      { x with buf := x.buf ++ b, opened := if x.buf = [] then s.sys.now else x.opened }) s
    if b.length < room then add b
    else
      let s1 := writeChunk r (add (b.take room))
      if b.length = room then s1 else fillChunks r n (b.drop room) s1

/-- An item joins its ring; one that does not fit in the rest of the extent begins the next. -/
def stageItem (r : Nat) (b : List Byte) (s : State) : State :=
  let x := ringOf s r
  let s1 := if x.ext.isSome ∧ (512 - x.slot) * chunkRoom < x.buf.length + b.length then
      modRing r (fun x => { x with ext := none }) (if x.buf = [] then s else writeChunk r s)
    else s
  let s2 := if (ringOf s1 r).ext.isNone then openExt r s1 else s1
  fillChunks r (b.length / chunkRoom + 2) b (modRing r (fun x => { x with first := if x.first.isNone then some x.buf.length else x.first }) s2)

/-- Chunks the staging buffer holds: open, waiting, and being written. -/
def stagedChunks (s : State) : Nat :=
  (s.arch.rings.filter fun p => !p.2.buf.isEmpty).length + s.arch.staged.length
    + (s.arch.cmds.filter fun c => match c.use with | .chunk _ _ _ => true | _ => false).length

/-- The staging buffer of 32 chunks has no room for an item. -/
def stagingFull (r : Nat) (b : List Byte) (s : State) : Bool :=
  let x := ringOf s r
  decide (32 < stagedChunks s + (if x.buf = [] then 1 else 0) + (if chunkRoom < x.buf.length + b.length then 1 else 0))

def dropRecord (r : Nat) (s : State) : State :=
  let a := s.arch
  { s with arch :=
    if r = 0 then { a with dropWave := satAdd 32 a.dropWave 1 }
    else if r = 1 then { a with dropEcho := satAdd 32 a.dropEcho 1 }
    else { a with dropHist := satAdd 32 a.dropHist 1 } }

/-- ARCHIVE_RECORD_STAGE: the next record enters the staging buffer or is dropped (R382, R388). -/
def execArchiveRecordStage (s : State) : Out :=
  .next (match s.arch.inQ with
    | [] => s
    | (r, b) :: rest =>
      let s1 := { s with arch := { s.arch with inQ := rest } }
      let held := r == 0 && (s.arch.budgetHold || s.arch.wearStop)
      if held then
        dropRecord r { s1 with arch := { s1.arch with budgetDrop := satAdd 32 s1.arch.budgetDrop 1 } }
      else if ¬ s.arch.mounted ∨ s.arch.suspended ∨ ¬ s.arch.running.contains r ∨ stagingFull r b s then dropRecord r s1
      else stageItem r b s1)

/-- CHUNK_SEAL_TIMER: a chunk open for SEAL_S is written as it is (R378). -/
def execChunkSealTimer (r : Nat) (s : State) : Out :=
  .next (if s.arch.mounted && decide (r < 3) && !(ringOf s r).buf.isEmpty then
    writeChunk r (advNow ((ringOf s r).opened + ns (1000000000 * sealS (rd s))) s) else s)

/-! ### Checkpoints and flush (R381, R383) -/

def ckptUse (u : NvmeUse) : Bool := match u with | .flush1 | .checkpoint | .flush2 => true | _ => false
def dataUse (u : NvmeUse) : Bool :=
  match u with | .chunk _ _ _ | .dealloc _ | .superblock _ | .mergeRead _ _ | .mergeWrite _ => true | _ => false

/-- A checkpoint is in progress. -/
def ckptBusy (s : State) : Bool := s.arch.cmds.any fun c => ckptUse c.use

/-- A flush whose chunks and merges are all written takes its checkpoint. -/
def flushNext (s : State) : State :=
  if s.arch.flushing && !ckptBusy s && !(s.arch.cmds.any fun c => dataUse c.use) && s.arch.staged.isEmpty && s.stk.merges.isEmpty
      && s.arch.merging.isNone then archIssue .flush1 0 [] s
  else s

/-- CHECKPOINT_TIMER. A flush in progress takes the place of the timed checkpoint (R389). -/
def execCheckpointTimer (s : State) : Out :=
  .next (if s.arch.mounted && !s.arch.suspended && !ckptBusy s && !s.arch.flushing then archIssue .flush1 0 [] s else s)

/-! ### Suspension, mounts (R372-R374, R386) -/

/-- The port's work on the drive is gone: merges in hand are lost and counted. -/
def dropWork (s : State) : State :=
  let lost := (s.arch.cmds.filter fun c => match c.use with | .mergeRead _ _ | .mergeWrite _ => true | _ => false).length
    + (if s.arch.merging.isSome then 1 else 0)
  { s with
    arch := { s.arch with cmds := [], staged := [], rings := [], flushing := false, merging := none, running := [] }
    stk := { s.stk with stDrop := satAdd 16 s.stk.stDrop lost } }

/-- ARCHIVE_SUSPEND. -/
def archSuspend (s : State) : State :=
  if s.arch.suspended then s
  else archIrq (let t := dropWork s; { t with arch := { t.arch with suspended := true, mounted := false } })

/-- A mount ends without success. -/
def mountFail (res : Nat) (s : State) : State :=
  archIrq (let t := dropWork s; { t with arch := { t.arch with mount := none, mounted := false, mountRes := res } })

/-- MOUNT_COMPLETE with success; a read-only medium suspends the archive at once. -/
def mountDone (s : State) : State :=
  let t := archIrq { s with arch := { s.arch with mount := none, mounted := true, mountRes := 1 } }
  if s.arch.crit.testBit 3 then archSuspend t else t

/-- The mount goes on at a stage with an admin command or its layout's first access. -/
def mountAt (st : MountStage) (step : Nat) (s : State) : State :=
  let s1 := { s with arch := { s.arch with mount := s.arch.mount.map fun m => (st, m.2.1, m.2.2) } }
  let use := NvmeUse.mount st step
  match st, step with
  | .initWrite, 1 => writeSuper use 0 s1
  | .initWrite, 2 => writeSuper use 1 s1
  | .initWrite, 3 => writeCheckpoint use s1
  | .recover, 0 => archRead use 0 4096 s1
  | .recover, 1 => archRead use (8 * s.arch.lba) 4096 s1
  | .recover, 2 => archRead use (2 ^ 20) (4096 + 16 * s.arch.e) s1
  | .recover, 3 => archRead use (5 * 2 ^ 20) (4096 + 16 * s.arch.e) s1
  | .recover, 4 => archRead use (s.arch.recov.ext * extBytes) slotBytes s1
  | .recover, 5 =>
    let n := s.arch.recov.todo.headD 0
    archRead use (n * extBytes + (tget (0, 0, 0, 0) s.arch.exts n).2.2.1 * slotBytes) slotBytes s1
  | .recover, 6 => writeCheckpoint use s1
  | _, _ => archIssue use 0 [] s1

/-! ### Recovery (R384) -/

/-- Little-endian number of `n` bytes at `a`. -/
def numAt (b : List Byte) (a n : Nat) : Nat := ofLe ((b.drop a).take n)

/-- A superblock as read is valid (R376). -/
def superValid (b : List Byte) : Bool :=
  decide (b.length = 4096) && decide (numAt b 0 4 = 0x5C0FA5B0) && decide (numAt b 4092 4 = crc32c (b.take 4092))

/-- A checkpoint as read is valid (R381). -/
def ckptValid (b : List Byte) : Bool :=
  decide (numAt b 0 4 = 0x5C0FA5C1) && decide (numAt b 60 4 = crc32c (b.take 60 ++ b.drop 4096))

/-- A chunk slot as read begins with a valid header (R377). -/
def chunkValid (b : List Byte) : Bool :=
  decide (numAt b 0 4 = 0x5C0FA5D2) && decide (numAt b 20 4 ≤ chunkRoom)
    && decide (numAt b 60 4 = crc32c (b.take 60 ++ (b.drop 64).take (numAt b 20 4)))

/-- Of two copies the valid one of higher sequence, at byte 8 of both layouts. -/
def newerOf (ok : List Byte → Bool) (a b : List Byte) : Option (List Byte) :=
  if ok a ∧ ok b then some (if numAt a 8 8 < numAt b 8 8 then b else a)
  else if ok a then some a else if ok b then some b else none

/-- A recovery stage goes on with what is held for it. -/
def recovAt (step : Nat) (v : Recov) (s : State) : State := mountAt .recover step { s with arch := { s.arch with recov := v } }

/-- The superblock gives the layout, or the mount ends (R374, R376). -/
def takeSuper (o : Option (List Byte)) (s : State) : State :=
  match o with
  | none => mountFail 6 s
  | some b =>
    if numAt b 6 2 ≠ 1 then mountFail 7 s
    else if numAt b 16 8 ≠ Config.dieNumber then mountFail 8 s
    else recovAt 2 ⟨[], 0, [], []⟩ { s with arch := { s.arch with
      sbSeq := numAt b 8 8, e := numAt b 28 4, stSlots := numAt b 32 1, quotas := [numAt b 33 1, numAt b 34 1, numAt b 35 1], rings := []
      dir := (List.range 64).foldl (fun t j =>
        if (numAt b (40 + 4 * j) 4).testBit 31 then tset 0xFFFFFFFF t j (numAt b (40 + 4 * j) 2) else t) [] } }

/-- The checkpoint gives the index, or none does. -/
def takeCkpt (o : Option (List Byte)) (s : State) : State :=
  match o with
  | none => { s with arch := { s.arch with ckSeq := 0, exts := [] } }
  | some b => { s with arch := { s.arch with
      ckSeq := numAt b 8 8
      exts := (List.range s.arch.e).foldl (fun t n =>
        let i := 4096 + 16 * n
        if numAt b i 8 = 0 then t else tset (0, 0, 0, 0) t n (numAt b (i + 8) 1, numAt b i 8, numAt b (i + 10) 2, numAt b (i + 12) 4)) [] } }

/-- The newest extent of a ring. -/
def newestExt (a : Arch) (r : Nat) : Option Nat :=
  ((sortBy (fun p => -(p.2.2.1 : Int)) (a.exts.filter fun p => p.2.1 == r)).head?).map fun p => p.1

/-- The next extent whose chunk headers are to be read, or the checkpoint that ends the recovery. -/
def nextScan (todo : List Nat) (s : State) : State :=
  match todo.filter fun n => decide ((tget (0, 0, 0, 0) s.arch.exts n).2.2.1 < 512) with
  | n :: r => recovAt 5 { s.arch.recov with todo := n :: r } s
  | [] => recovAt 6 ⟨[], 0, [], []⟩ { s with arch := { s.arch with
      nextSeq := 1 + s.arch.exts.foldl (fun m p => max m p.2.2.1) 0 } }

/-- The header of the next data extent, or the scan of the newest and of the changed extents. -/
def nextHeader (n : Nat) (changed : List Nat) (s : State) : State :=
  if n < s.arch.e then recovAt 4 ⟨[], n, changed, []⟩ s
  else nextScan (((List.range 3).filterMap (newestExt s.arch)).foldl addNew changed) s

/-- A read of the recovery has brought `b`. -/
def recovNext (step : Nat) (b : List Byte) (s : State) : State :=
  let v := s.arch.recov
  if step = 0 then recovAt 1 { v with held := b } s
  else if step = 1 then takeSuper (newerOf superValid v.held b) s
  else if step = 2 then recovAt 3 { v with held := b } s
  else if step = 3 then (let t := takeCkpt (newerOf ckptValid v.held b) s; nextHeader (dataFirst t.arch) [] t)
  else if step = 4 then
    if chunkValid b ∧ (tget (0, 0, 0, 0) s.arch.exts v.ext).2.1 ≠ numAt b 8 8 then
      nextHeader (v.ext + 1) (v.changed ++ [v.ext]) { s with arch := { s.arch with
        exts := tset (0, 0, 0, 0) s.arch.exts v.ext (numAt b 18 1, numAt b 8 8, 1, numAt b 28 4) } }
    else nextHeader (v.ext + 1) v.changed s
  else
    let n := v.todo.headD 0
    if chunkValid b ∧ (tget (0, 0, 0, 0) s.arch.exts n).2.1 = numAt b 8 8 then
      nextScan v.todo { s with arch := { s.arch with exts := tmod (0, 0, 0, 0) s.arch.exts n fun x => (x.1, x.2.1, x.2.2.1 + 1, x.2.2.2) } }
    else nextScan (v.todo.drop 1) s

/-- The layout an INIT writes, or SMALL (R375, R384). -/
def initLayout (s : State) : State :=
  let r := rd s
  let qs := [quotaOf r 0, quotaOf r 1, quotaOf r 2]
  let d := dataCount s.arch.e (cfgStSlots r)
  if qs.any fun q => decide (q ≠ 0) && decide (q * d / 256 < 2) then mountFail 9 s
  else mountAt .initWrite 0 { s with arch := { s.arch with
    sbSeq := 1, stSlots := cfgStSlots r, quotas := qs, dir := [], exts := [], nextSeq := 1, ckSeq := 0, rings := [] } }

/-- The health log as read: WEAR_STOP and the read-only medium (R387). -/
def healthIn (pct crit : Nat) (s : State) : State :=
  let stop := decide (wearLimit (rd s) ≤ pct) || crit.testBit 0 || crit.testBit 2
  let s1 := { s with arch := { s.arch with
    pct := pct, crit := crit, wearStop := stop, running := if stop then remNat s.arch.running 0 else s.arch.running } }
  let s2 := if stop && !s.arch.wearStop then archIrq (logNote 0x13 4 0 s1) else s1
  if crit.testBit 3 && s.arch.mounted then archSuspend s2 else s2

/-- A command of the mount has succeeded. -/
def mountNext (st : MountStage) (step : Nat) (d : NvmeData) (s : State) : State :=
  match s.arch.mount with
  | none => s
  | some m =>
    match st with
    | .perst | .linkWait | .enableWait => s
    | .identify => mountAt .features 0 (match d with | .controller n => { s with arch := { s.arch with mdts := n } } | _ => s)
    | .features => mountAt .namespaceId 0 (match d with | .granted n => { s with arch := { s.arch with pairs := min 4 n } } | _ => s)
    | .namespaceId => (match d with
      | .namespaceId active lba metaSz prot bytes =>
        if ¬ active then mountFail 4 s
        else if (lba ≠ 512 ∧ lba ≠ 4096) ∨ metaSz ≠ 0 ∨ prot then mountFail 5 s
        else mountAt .queues 0 { s with arch := { s.arch with lba := lba, e := min bytes (2 ^ 43) / extBytes } }
      | _ => mountFail 4 s)
    | .queues => if step + 1 < 2 * s.arch.pairs then mountAt .queues (step + 1) s else mountAt .cache 0 s
    | .cache => mountAt .health 0 s
    | .health =>
      let s1 := (match d with | .health pct crit => healthIn pct crit s | _ => s)
      if m.2.2 then initLayout s1 else mountAt .recover 0 s1
    | .initWrite => if step < 3 then mountAt .initWrite (step + 1) s else mountDone { s with arch := { s.arch with ckSeq := s.arch.ckSeq + 1 } }
    | .recover =>
      if step = 6 then mountDone { s with arch := { s.arch with ckSeq := s.arch.ckSeq + 1 } }
      else recovNext step (match d with | .bytes b => b | _ => []) s

/-! ### Station stacks (R166, R380) -/

/-- The merge at hand reads both copies of its record pair. -/
def readPair (slot : Nat) (m : Merge) (s : State) : State :=
  archRead (.mergeRead slot m) ((1 + 8 * slot) * extBytes + (128 * m.ch + m.dir) * 16384) 16384 s

/-- A station's slot. -/
def stationSlot (s : State) (n : Nat) : Option Nat := (s.arch.dir.find? fun p => p.2 == n).map fun p => p.1

def mergeDrop (s : State) : State := { s with stk := { s.stk with stDrop := satAdd 16 s.stk.stDrop 1 } }

/-- STATION_MERGE: the next spill bound for a station stack; one merge at a time. -/
def execStationMerge (s : State) : Out :=
  .next (match s.stk.merges with
    | [] => s
    | m :: rest =>
      if s.arch.merging.isSome || s.arch.cmds.any fun c => match c.use with | .mergeRead _ _ | .mergeWrite _ => true | _ => false then s
      else
        let s1 := { s with stk := { s.stk with merges := rest } }
        if ¬ s.arch.mounted ∨ s.arch.suspended then mergeDrop s1
        else match stationSlot s m.station with
          | some j => readPair j m s1
          | none => match (List.range s.arch.stSlots).find? fun j => (lookupNat s.arch.dir j).isNone with
            | none => flushNext (mergeDrop s1)
            | some j => writeSuper (.superblock 0) 0 { s1 with arch := { s1.arch with
                dir := tset 0xFFFFFFFF s1.arch.dir j m.station, sbSeq := s1.arch.sbSeq + 1, merging := some m } })

/-- A copy of a station record is valid: its CRC matches (R165). -/
def copyValid (b : List Byte) : Bool :=
  decide (b.length = 4160) && decide (ofLe ((b.drop 60).take 4) = crc32c (b.take 60 ++ b.drop 64))

/-- The valid copy with the higher SEQ: its place and bytes. -/
def newerCopy (c0 c1 : List Byte) : Option (Nat × List Byte) :=
  match copyValid c0, copyValid c1 with
  | true, true => if numAt c0 0 4 < numAt c1 0 4 then some (1, c1) else some (0, c0)
  | true, false => some (0, c0)
  | false, true => some (1, c1)
  | false, false => none

/-- Both copies are read: the spill is added into the other copy, starts the record, or is refused for its geometry (R166; a
record that no valid copy holds starts in copy 0, log entry 68). -/
def mergeIn (slot : Nat) (m : Merge) (d : NvmeData) (s : State) : State :=
  let at_ := fun copy => (1 + 8 * slot) * extBytes + (128 * m.ch + m.dir) * 16384 + copy * 8192
  let put := fun copy seq spills first echoes bins =>
    archIssue (.mergeWrite m) (at_ copy) (stationBytes (devIdx s) m (seq % 2 ^ 32) (spills % 2 ^ 32) first m.last (echoes % 2 ^ 64) bins) s
  match (match d with | .bytes b => newerCopy (b.take 4160) ((b.drop 8192).take 4160) | _ => none) with
  | none => put 0 1 1 m.first m.echoes m.bins
  | some (n, b) =>
    if numAt b 10 1 ≠ m.binK ∨ numAt b 12 4 % 2 ^ 22 ≠ m.zoom then
      flushNext { s with stk := { s.stk with stMismatch := satAdd 16 s.stk.stMismatch 1 } }
    else
      let sum := (List.range 1024).foldl (fun t i => tset 0 t i (min (2 ^ 32 - 1) (numAt b (64 + 4 * i) 4 + tget 0 m.bins i))) []
      put (1 - n) (numAt b 0 4 + 1) (numAt b 16 4 + 1) (numAt b 20 4) (numAt b 28 8 + m.echoes) sum

/-! ### Completions (R370, R371, R385) -/

/-- A command has succeeded. -/
def cmdDone (c : NvmeCmd) (d : NvmeData) (s : State) : State :=
  match c.use with
  | .mount st step => mountNext st step d s
  | .chunk _ ext slot => { s with arch := { s.arch with
      exts := tmod (0, 0, 0, 0) s.arch.exts ext fun x => (x.1, x.2.1, max x.2.2.1 (slot + 1), x.2.2.2) } }
  | .dealloc n =>
    each (s.arch.staged.filter fun p => p.2.1 == n) (fun p => archIssue (.chunk p.1 p.2.1 p.2.2.1) (p.2.1 * extBytes + p.2.2.1 * slotBytes) p.2.2.2)
      { s with arch := { s.arch with staged := s.arch.staged.filter fun p => p.2.1 != n } }
  | .superblock copy =>
    if copy = 0 then writeSuper (.superblock 1) 1 s
    else (match s.arch.merging with
      | some m =>
        let s1 := { s with arch := { s.arch with merging := none } }
        (match stationSlot s m.station with | some j => readPair j m s1 | none => mergeDrop s1)
      | none => s)
  | .flush1 => writeCheckpoint .checkpoint s
  | .checkpoint => archIssue .flush2 0 [] { s with arch := { s.arch with ckSeq := s.arch.ckSeq + 1 } }
  | .flush2 => if s.arch.flushing then archIrq { s with arch := { s.arch with flushing := false } } else s
  | .mergeRead slot m => mergeIn slot m d s
  | .mergeWrite _ => s
  | .health => (match d with | .health pct crit => healthIn pct crit s | _ => s)

/-- A command has succeeded: its transfer goes on, or is whole. -/
def cmdNext (c : NvmeCmd) (d : NvmeData) (s : State) : State :=
  let b := c.got ++ (match d with | .bytes b => b | _ => [])
  if c.more ≠ [] then archCmd c.use (c.addr + c.data.length) c.more 0 [] s
  else if c.left ≠ 0 then archCmd c.use (c.addr + c.len) [] c.left b s
  else cmdDone c (match d with | .bytes _ => .bytes b | _ => d) s

/-- A command has failed for good. MOUNT_RES of an error the table does not name is a free value (log entry 66). -/
def cmdFail (c : NvmeCmd) (timeout : Bool) (s : State) : State :=
  match c.use with
  | .mount st _ =>
    if timeout && (nvmeOpcode c.use).1 then mountFail 10 s
    else if st = .namespaceId then mountFail 4 s
    else let f := takeFree 16 s; mountFail (2 + f.1 % 9) f.2
  | .chunk r ext _ =>
    let s1 := { s with arch := { s.arch with writeErr := satAdd 16 s.arch.writeErr 1 } }
    if (ringOf s r).ext = some ext then modRing r (fun x => { x with ext := none, slot := 0 }) s1 else s1
  | .dealloc _ => cmdDone c .none s
  | .superblock _ => mergeDrop { s with arch := { s.arch with merging := none } }
  | .flush1 | .checkpoint | .flush2 => if s.arch.flushing then archIrq { s with arch := { s.arch with flushing := false } } else s
  | .mergeRead _ _ | .mergeWrite _ => mergeDrop s
  | .health => s

/-- A command of the outstanding ones ends. -/
def takeCmd (cid : Nat) (s : State) : Option (NvmeCmd × State) :=
  (s.arch.cmds.find? fun c => c.cid == cid).map fun c => (c, { s with arch := { s.arch with cmds := s.arch.cmds.erase c } })

/-- One error: an event, then a retry where it is the first and may be retried. -/
def cmdError (c : NvmeCmd) (timeout again : Bool) (s : State) : State :=
  let s1 := raiseOpen 5 0 s
  let admin := match c.use with | .mount _ _ => timeout && (nvmeOpcode c.use).1 | _ => false
  if again && !c.retried && !admin then
    countBytes c.data.length { s1 with arch := { s1.arch with
      cmds := s1.arch.cmds ++ [{ c with cid := s1.arch.nextCid, at_ := s1.sys.now, retried := true }], nextCid := s1.arch.nextCid + 1 } }
  else cmdFail c timeout s1

/-- NVME_COMPLETION; one for an identifier that has timed out is discarded. -/
def execNvmeCompletion (cid : Nat) (ok dnr : Bool) (d : NvmeData) (s : State) : Out :=
  .next (match takeCmd cid s with
    | none => s
    | some (c, s1) => flushNext (if ok then cmdNext c d s1 else cmdError c false (!dnr) s1))

/-- NVME_COMMAND_TIMEOUT, ADMIN_TO or IO_TO after its issue. -/
def execNvmeCommandTimeout (cid : Nat) (s : State) : Out :=
  .next (match takeCmd cid s with
    | none => s
    | some (c, s0) =>
      let s1 := advNow (c.at_ + ns (1000000 * (if (nvmeOpcode c.use).1 then adminTo (rd s) else ioTo (rd s)))) s0
      flushNext (cmdError c true true { s1 with arch := { s1.arch with timeouts := satAdd 16 s1.arch.timeouts 1, timedOut := true } }))

/-! ### The PCI Express link -/

/-- Stage of the mount in progress. -/
def mountStage (s : State) : Option MountStage := s.arch.mount.map fun m => m.1

def setStage (st : MountStage) (s : State) : State :=
  { s with arch := { s.arch with mount := s.arch.mount.map fun m => (st, m.2.1, m.2.2) } }

/-- AP_PERST_TIMER: AP_PERSTn is released after 100 ms. -/
def execApPerstTimer (s : State) : Out :=
  .next (if mountStage s = some .perst then setStage .linkWait { s with arch := { s.arch with perstLow := false } } else s)

/-- PCIE_LINK_UP, at a rate and width capped by the ARCHIVE block. -/
def execPcieLinkUp (gen width : Nat) (cap : Bool) (s : State) : Out :=
  .next (if mountStage s = some .linkWait then
    setStage .enableWait { s with arch := { s.arch with
      gen := clampN 1 (maxGen (rd s)) gen, width := min width (maxWidth (rd s)), l0sCap := cap, l0sTx := false, l0sRx := false } }
    else s)

/-- PCIE_LINK_TIMEOUT. -/
def execPcieLinkTimeout (s : State) : Out := .next (if mountStage s = some .linkWait then mountFail 2 s else s)

/-- CONTROLLER_READY: Identify follows, or the mount ends NOCTRL. -/
def execControllerReady (ready : Option Nat) (s : State) : Out :=
  .next (if mountStage s = some .enableWait then
    (match ready with
      | some mqes => mountAt .identify 0 { s with arch := { s.arch with mqes := mqes, mdts := 0, pairs := 0 } }
      | none => mountFail 3 s) else s)

/-- The link is lost: a mount ends, a mounted archive is suspended. -/
def archLinkLost (s : State) : State :=
  let s1 := { s with arch := { s.arch with gen := 0, width := 0 } }
  if s.arch.mount.isSome then mountFail 2 s1 else if s.arch.mounted then archSuspend s1 else s1

/-- PCIE_LINK_DOWN. -/
def execPcieLinkDown (s : State) : Out := .next (if domUp s 17 ∧ s.arch.gen ≠ 0 then archLinkLost s else s)

/-- CONTROLLER_FATAL_STATUS (R374, R386). -/
def execControllerFatalStatus (s : State) : Out :=
  .next (if ¬ domUp s 17 ∨ s.arch.gen = 0 then s
    else if s.arch.mount.isSome then mountFail 3 s else if s.arch.mounted then archSuspend s else s)

/-! ### Wear (R387, R388) -/

/-- The health log is read. -/
def readHealth (s : State) : State := if s.arch.mounted && !s.arch.suspended then archIssue .health 0 [] s else s

/-- HEALTH_READ_TIMER: the buckets roll and the health log is read. -/
def execHealthReadTimer (s : State) : Out :=
  .next (if ¬ domUp s 17 then s
    else
      let s1 := { s with arch := { s.arch with buckets := 0 :: s.arch.buckets.take 23 } }
      let s2 := if s.arch.budgetHold && decide (wearSum s1 * 16 < 15 * wearBudget (rd s) * gib) then
          archIrq { s1 with arch := { s1.arch with budgetHold := false } } else s1
      readHealth s2)

/-- APC's crossing: a change of WEAR_LIMIT reads the health log at once; no budget, no hold. -/
def archSwap (r0 : Rd) (s : State) : State :=
  let s1 := if s.arch.budgetHold && decide (wearBudget (rd s) = 0) then archIrq { s with arch := { s.arch with budgetHold := false } } else s
  if wearLimit r0 ≠ wearLimit (rd s) then readHealth s1 else s1

/-! ### Packets (R369, R372, R383) -/

/-- LANE_STATE on the archive port. -/
def archLaneState (q : Req) (s : State) : State :=
  let w := qw q 0
  let rx := bit w 30
  let code := fld w 29 28
  if 2 ≤ code then replyTo 0x22 q 8 [] s
  else if ¬ domUp s 17 ∨ (rx ∧ code = 1 ∧ s.arch.gen ≠ 0 ∧ ¬ s.arch.l0sCap) then replyTo 0x22 q 10 [] s
  else if s.arch.gen = 0 then replyTo 0x22 q 7 [] s
  else replyTo 0x22 q 0 [] { s with arch := if rx then { s.arch with l0sRx := decide (code = 1) } else { s.arch with l0sTx := decide (code = 1) } }

/-- ARCH_MOUNT. Whether a recovery of the port's own is still unfinished after a timeout, the spec leaves open (log entry 65). -/
def archMount (q : Req) (s : State) : State :=
  let a := s.arch
  let f := takeFree 1 s
  if ¬ domUp s 17 ∨ isLasting s 5 0 then replyTo 0x50 q 10 [] s
  else if a.mount.isSome ∨ (a.mounted ∧ a.running ≠ []) then replyTo 0x50 q 1 [] s
  else if a.timedOut ∧ f.1 = 1 then replyTo 0x50 q 11 [] f.2
  else
    let s1 := dropWork f.2
    replyTo 0x50 q 12 [] { s1 with arch := { s1.arch with
      mount := some (if a.everMounted then .perst else .linkWait, (qw q 0).toNat, bit (qw q 1) 0), perstLow := a.everMounted, everMounted := true
      mounted := false, suspended := false, timedOut := false, gen := 0, width := 0, l0sTx := false, l0sRx := false } }

/-- ARCH_START. -/
def archStart (q : Req) (s : State) : State :=
  let m := bitsSet 4 0 (fld (qw q 0) 3 0)
  if ¬ domUp s 17 then replyTo 0x51 q 10 [] s
  else if ¬ s.arch.mounted ∨ s.arch.suspended then replyTo 0x51 q 7 [] s
  else if (m.contains 0 ∧ s.arch.wearStop) ∨ (m.any fun r => decide (r < 3) && decide (ringQuota s.arch r < 2)) ∨ (m.contains 3 ∧ s.arch.stSlots = 0) then
    replyTo 0x51 q 10 [] s
  else replyTo 0x51 q 0 [] { s with arch := { s.arch with running := (List.range 4).filter fun k => s.arch.running.contains k || m.contains k } }

/-- ARCH_STOP. -/
def archStop (q : Req) (s : State) : State :=
  let m := bitsSet 4 0 (fld (qw q 0) 3 0)
  if ¬ domUp s 17 then replyTo 0x52 q 10 [] s
  else if ¬ s.arch.mounted ∨ s.arch.suspended then replyTo 0x52 q 7 [] s
  else
    let s1 := { s with arch := { s.arch with running := s.arch.running.filter fun k => !m.contains k } }
    if ¬ bit (qw q 0) 4 then replyTo 0x52 q 0 [] s1
    else
      let s2 := each [0, 1, 2] (fun r s => if (ringOf s r).buf.isEmpty then s else writeChunk r s) s1
      flushNext (replyTo 0x52 q 12 [] { s2 with arch := { s2.arch with flushing := true } })

/-- D17 goes off: work is lost; MOUNT_RES is kept (R373, R391, R420). -/
def archDomainOff (s : State) : State := let t := dropWork s; { t with arch := { Arch.reset with mountRes := s.arch.mountRes } }

/-- D17 is up: AP_PERSTn stays low until the first mount (R367, R374). -/
def archDomainUp (s : State) : State := { s with arch := Arch.reset }

end Sys2Proof.Machine
end

