-- ==== Sys2Proof/Machine/Engines.lean ====
section
/-!
DEFINITION. The echo engines (R108-R117, R122-R131, R136): hand-off and claims, queues, shedding,
stealing, what a task does, start windows, finish tasks, memory errors and microcode banks.
-/

namespace Sys2Proof.Machine

/-! ### Quarters and homes (R108) -/

def quarterUp (s : State) (q : Nat) : Bool := domUp s (10 + q)
/-- A quarter takes hand-offs: up and not being drained (R108, R420). -/
def quarterHome (s : State) (q : Nat) : Bool := quarterUp s q && !s.pwr.draining.contains (10 + q)
def engineUp (s : State) (k : Nat) : Bool := decide (k < 64) && quarterUp s (quarterOf k)

/-- Powered quarter that is home to a channel; while every powered one drains, the draining one. -/
def homeQuarter (s : State) (c : Nat) : Option Nat :=
  let l := (List.range 4).map fun j => (c / 64 + j) % 4
  (l.find? (quarterHome s)).or (l.find? (quarterUp s))

/-- Home engine of a channel. -/
def homeEngine (s : State) (c : Nat) : Option Nat := (homeQuarter s c).map fun q => 16 * q + c / 4 % 16

/-- The engines that serve the start queue (R111). -/
def startServers (s : State) : List Nat := ((List.range 64).filter fun k => engineUp s k && !(engine s k).retired).take 4

/-- Every engine of the device is retired: no window can be processed (R131). -/
def allRetired (s : State) : Bool := (List.range 64).all fun k => (engine s k).retired

/-! ### Slices (R118, R121) -/

/-- Channels of records that wait for the stream link, by the record's CH byte. -/
def waitingChans (size at_ : Nat) : Nat → List Byte → List Nat
  | 0, _ => []
  | n + 1, b => if b.length < size then [] else (b.getD at_ 0).toNat :: waitingChans size at_ n (b.drop size)

/-- CHs of the echo records and of the raw records released and not yet sent. -/
def echoesWaiting (s : State) : List Nat :=
  (tget [] s.link.ready 0).flatMap fun f => waitingChans 16 9 16 (if f.fh then f.bytes.drop 64 else f.bytes)
def rawsWaiting (s : State) : List Nat := (tget [] s.link.ready 1).flatMap fun f => waitingChans 64 15 4 f.bytes

/-- A slice's room for 1,024 raw records is used up. -/
def rawsFull (s : State) (q : Nat) : Bool :=
  let here := fun c => homeQuarter s c == some q
  decide (1024 ≤ (s.eng.raws.filter fun w => here w.ch).length + ((rawsWaiting s).filter here).length)

/-- A slice holds 4,096 echo records or 1,024 raw records. -/
def sliceFull (s : State) (q : Nat) : Bool :=
  let here := fun c => homeQuarter s c == some q
  decide (4096 ≤ (s.eng.echoes.filter fun e => here e.ch).length + ((echoesWaiting s).filter here).length) || rawsFull s q

/-- The µs after the one in hand; the present one where it just begins. -/
def usEnd (s : State) : Nat := (s.sys.now + 4999) / 5000

/-- REORDER_FULL: the µs in which some slice was full, those of the running spell among them (R121; log entry 82). -/
def fullCount (s : State) : Nat :=
  match s.eng.fullSince with
  | none => s.eng.reorderFull
  | some t => satAdd 32 s.eng.reorderFull (usEnd s - t)

/-- Some slice is full. -/
def someFull (s : State) : Bool := (List.range 4).any fun q => quarterUp s q && sliceFull s q

/-- A spell with a full slice begins or ends. -/
def noteFull (s : State) : State :=
  match s.eng.fullSince with
  | none => if someFull s then { s with eng := { s.eng with fullSince := some (max (s.sys.now / 5000) s.eng.fullNext) } } else s
  | some _ => if someFull s then s else { s with eng := { s.eng with fullSince := none, reorderFull := fullCount s, fullNext := usEnd s } }

/-! ### Tasks -/

/-- Channel of a task, and the shot it counts for. -/
def taskCh : Task → Nat
  | .win w _ _ => w.ch | .cal w _ => w.ch | .stk w _ => w.ch | .fin _ c _ => c | .start w _ => w.ch
def taskSid : Task → Option Nat
  | .win _ sid _ => some sid | .cal w _ => w.calSid | .stk w _ => some w.sid | .fin sid _ _ => some sid | .start _ _ => none

/-- A task's side of the token: the epoch in which it was handed over (R25, R113). -/
def taskEpoch : Task → Nat
  | .win _ _ e => e | .cal _ e => e | .stk _ e => e | .start _ e => e | .fin _ _ e => e

def isFin (t : Task) : Bool := match t with | .fin _ _ _ => true | _ => false

/-- First cell nearer to the fire edge than NEAR_NS (R115). -/
def nearWin (s : State) (w : Win) (sid : Nat) : Bool :=
  match shotOf s sid with
  | some x => decide (fromFire x w.first < 8 * ns (nearNs (rd s)))
  | none => false

/-- Shed priority (R115). -/
def shedPrio (s : State) (t : Task) : Nat :=
  match t with
  | .cal _ _ => 0
  | .win w sid _ => (match w.reason with | .indigo | .both => 3 | .trigger | .cal => 1) + b2n (nearWin s w sid)
  | .stk _ _ => 5
  | .fin _ _ _ => 6
  | .start _ _ => 6

/-- Park instant in the tie rule of R114; a stacked window, which the spec gives none, counts as the oldest (log entry 124). -/
def parkOf (t : Task) : Nat := match t with | .win w _ _ => w.parkAt | .cal w _ => w.parkAt | _ => 0

/-- The task R114 sheds of a list: lowest priority, newest park, highest channel. -/
def shedPick (s : State) (l : List Task) : Option Task :=
  (sortBy (fun t => (shedPrio s t : Int)) (sortBy (fun t => -(parkOf t : Int)) (sortBy (fun t => -(taskCh t : Int)) l))).head?

/-- A window's raw record waits in its slice for its shot group. -/
def putRawRec (sid : Nat) (w : Win) (s : State) : State :=
  match shotOf s sid with
  | some x =>
    if x.released then s
    else
      let f := takeFree 1 s
      noteFull { f.2 with eng := { s.eng with raws := s.eng.raws ++ [⟨sid, w.ch, rawBytes (devIdx s) x w f.1⟩] } }
  | none => s

/-- A loss on a channel: GAP pending, and the shot's channel marked (R117, R148). -/
def noteLoss (c : Nat) (sid : Option Nat) (s : State) : State :=
  let s1 := modEngCh c (fun x => { x with gapPend := true }) s
  match sid with
  | some n => modShot n (fun x => { x with lossy := addNew x.lossy c }) s1
  | none => s1

/-- A task of a shot's count is done with (R119, R116, R136). -/
def countDone (sid : Option Nat) (s : State) : State :=
  match sid with | some n => modShot n (fun x => { x with done := x.done + 1 }) s | none => s
def countShed (sid : Option Nat) (s : State) : State :=
  match sid with | some n => modShot n (fun x => { x with shed := x.shed + 1 }) s | none => s

def hdrShed (s : State) : State :=
  let s1 := modHdr (fun h => { h with shed := satAdd 32 h.shed 1 }) s
  putItem 9 (min (2 ^ 24 - 1) s1.fire.cnt.shed) s1
def hdrLost (s : State) : State := modHdr (fun h => { h with lost := satAdd 32 h.lost 1 }) s

/-- A window task is shed (R114, R116). -/
def shedTask (t : Task) (s : State) : State :=
  let c := taskCh t
  let s1 := noteLoss c (taskSid t) (countShed (taskSid t) (hdrShed (modEngCh c (fun x => { x with shed := satAdd 16 x.shed 1 }) s)))
  let room := match homeQuarter s c with | some q => !rawsFull s q | none => false
  match t with
  | .win w sid _ => if rawOnShed (rd s) && w.raw && room then putRawRec sid w s1 else s1
  | .cal w _ => match w.calSid with
    | some sid => if rawOnShed (rd s) && w.raw && room then putRawRec sid w s1 else s1
    | none => s1
  | _ => s1

def pushTask (k : Nat) (t : Task) (s : State) : State := modEngine k (fun e => { e with queue := e.queue ++ [t] }) s
def eraseTask (k : Nat) (t : Task) (s : State) : State := modEngine k (fun e => { e with queue := e.queue.erase t }) s

/-- A window task arrives at its home queue (R109, R114); it is shed with no quarter powered (R108), and with every engine
retired (R131). -/
def enterHome (t : Task) (s : State) : State :=
  match homeEngine s (taskCh t) with
  | none => countShed (taskSid t) (hdrShed (match taskSid t with
      | some n => modShot n (fun x => { x with lossy := addNew x.lossy (taskCh t) }) s
      | none => s))
  | some k =>
    let q := (engine s k).queue
    if allRetired s then shedTask t s
    else if q.length < 64 then pushTask k t s
    else match shedPick s (t :: q.filter fun u => !isFin u) with
      | some v => if v = t then shedTask t s else pushTask k t (eraseTask k v (shedTask v s))
      | none => s

/-- A late window: LATE, LOST and GAP (R120). -/
def lateWindow (c : Nat) (sid : Option Nat) (s : State) : State :=
  noteLoss c sid (hdrLost (modEngCh c (fun x => { x with late := satAdd 8 x.late 1 }) s))

/-! ### Start windows (R93, R94, R111) -/

/-- S of a shot is known: its own, and that of its components (R172). -/
def setS (sid : Nat) (v : Int) (s : State) : State :=
  let s1 := modShot sid (fun x => { x with s := some v, startWait := false }) s
  { s1 with stk := { s1.stk with openStacks := s1.stk.openStacks.map fun k =>
      { k with comps := k.comps.map fun q => if q.sid = sid then { q with s := some v } else q } } }

/-- No start for a shot: NOM, LOWCONF, START_MISS (R94). -/
def startMissed (sid : Nat) (s : State) : State :=
  match shotOf s sid with
  | some x =>
    if x.sin < 4 then
      modShot sid (fun y => { y with lowconf := true, sStamp := none })
        (modEmit x.em (fun e => { e with startMiss := satAdd 8 e.startMiss 1 }) (setS sid (sinNom (rdAt s x.epoch) x.sin) s))
    else s
  | none => s

/-- The start trigger of a shot lies in a start window. -/
def startIn (w : Win) (x : Shot) : Bool :=
  x.sin + 256 == w.ch && (match x.sStamp with | some t => decide (w.first ≤ t) && decide (t ≤ w.first + 31) | none => false)

/-- A start window is lost: every shot whose start it holds has none (R94, R111). -/
def startLost (w : Win) (s : State) : State :=
  each (s.fire.shots.filter fun x => startIn w x && x.s.isNone) (fun x => startMissed x.sid) s

/-- A task of the start queue is lost. -/
def startTaskLost (t : Task) (s : State) : State := match t with | .start w _ => startLost w s | _ => s

/-- An engine is retired. With the last one every window that still waits is shed, and every start window lost (R131). -/
def retireEngine (k : Nat) (s : State) : State :=
  let s1 := modEngine k (fun e => { e with retired := true }) s
  if ¬ allRetired s1 then s1
  else
    let wait := s1.eng.engines.flatMap fun p => p.2.queue.filter fun t => !isFin t
    let starts := s1.eng.startQ
    let s2 := each ((List.range 64).filter fun k => (engine s1 k).queue != []) (fun k => modEngine k fun e => { e with queue := e.queue.filter isFin })
      { s1 with eng := { s1.eng with startQ := [] } }
    each starts startTaskLost (each wait shedTask s2)

/-- Shot that owns a start window: the earliest fire edge of those with an interval that holds the trigger. -/
def startOwner (s : State) (w : Win) : Option Shot :=
  (sortBy (fun x => (fireTime x : Int)) (s.fire.shots.filter fun x => x.sin + 256 == w.ch && !(acceptEdges (rd s) x w.stamp).isEmpty)).head?

/-- Candidates of a start window referred to a shot's F, with the owner's start template (R111). -/
def startCands (r : Rd) (e : Nat) (w : Win) (x3 y : Vals) (x : Shot) : List Cand :=
  candidates r e (selStart r e) (windowStart x w) w.rtag w.sat false w.codes (fun _ => (candFloor r : Int)) x3 y

/-- Candidate within a later edge's acceptance interval, LSB from F. -/
def edgeCand (r : Rd) (x : Shot) (j : Nat) (l : List Cand) : Option Cand :=
  let d := ((x.edges.getD j 0 : Nat) : Int) - x.fcyc
  l.find? fun k => decide ((d - 10) * 512 ≤ k.e * 10) && decide (k.e * 10 ≤ (d + ns (sinWin r)) * 512)

/-- A start window's results reach one shot. -/
def startFor (r : Rd) (e : Nat) (w : Win) (x3 y : Vals) (x : Shot) (s : State) : State :=
  let l := startCands r e w x3 y x
  let s1 := if ¬ (startIn w x ∧ x.s.isNone) then s
    else match (if x.sStamp = some w.stamp then l.head? else (l.drop 1).head?) with
      | none => startMissed x.sid s
      | some k =>
        let s2 := setS x.sid k.e (modEmit x.em (fun m => { m with sRef := some k.e }) s)
        if w.sat then modShot x.sid (fun y => { y with lowconf := true }) (modEmit x.em (fun m => { m with startSat := satAdd 8 m.startSat 1 }) s2) else s2
  let rest := if startIn w x then l.drop 1 else l
  let edge := fun (j : Nat) (old : Option Int) => if old.isSome || x.fate.getD j 2 == 2 then old else (edgeCand r x j rest).map fun k => k.e
  modShot x.sid (fun z => { z with o2 := edge 1 z.o2, o3 := edge 2 z.o3 }) s1

/-- The raw record of a start window goes with its owner's group (R83, R94). -/
def doStart (w : Win) (ep : Nat) (s : State) : State :=
  let r := rdAt s ep
  match startOwner s w with
  | none => s
  | some o =>
    let f := frontSteps r (calChAt s ep w.ch) false w
    let y := filterStep r o.em (selStart r o.em) f.2
    let served := s.fire.shots.filter fun x => x.sin + 256 == w.ch && !x.released && (startIn w x || !(acceptEdges (rd s) x w.stamp).isEmpty)
    let s1 := each served (startFor r o.em w f.2 y) s
    if w.raw then putRawRec o.sid w s1 else s1

/-! ### Hand-off and claims (R109, R137, R170) -/

/-- Shot that claims a window (R137). -/
def claimOf (s : State) (w : Win) : Option Nat :=
  match w.reason with
  | .indigo | .both => w.gateSid
  | .cal => w.calSid
  | .trigger =>
    let l := s.fire.shots.filter fun x => x.group.contains w.ch && inListen x w.stamp
    let o := sortBy (fun x => (fireTime x : Int)) l
    ((if claimEarliest (rd s) then o.head? else o.getLast?).map fun x => x.sid)

/-- The gate of a window's claiming shot. -/
def gateOf (x : Shot) (w : Win) : Option Gate := x.gates.find? fun g => g.ch == w.ch && g.idx == w.gate

/-- The window's component of a stacked gate goes to the stack unit. -/
def handComp (x : Shot) (w : Win) (s : State) : State :=
  let r := rd s
  match gateOf x w with
  | some g =>
    if stacked r w.gate && domUp s 14 then
      takeComp r x g (compOf x g w (frontSteps r (calCh s w.ch) false w).2) s
    else s
  | none => s

/-- An INDIGO window of a stacked gate enters no queue (R170); with D14 off it is an ordinary window (R158). -/
def onlyComp (s : State) (w : Win) : Bool := w.reason == .indigo && stacked (rd s) w.gate && domUp s 14

/-- A return window claimed by shot `sid` is handed over. -/
def handReturn (w : Win) (sid : Nat) (s : State) : State :=
  match shotOf s sid with
  | none => lateWindow w.ch none s
  | some x =>
    if x.released then lateWindow w.ch none s
    else
      let hasGate := w.reason == .indigo || w.reason == .both
      let s1 := if hasGate then handComp x w s else s
      if onlyComp s w then
        (if w.raw then putRawRec sid w s1 else s1)
      else enterHome (.win w sid s.cfg.epoch) (modShot sid (fun y => { y with claimed := y.claimed + 1 }) s1)

/-- A calibration window is handed over; it counts for the shot in whose gate it lies (R482). -/
def handCal (w : Win) (s : State) : State :=
  match w.calSid.bind (shotOf s) with
  | some x =>
    if x.released then lateWindow w.ch none s
    else enterHome (.cal w s.cfg.epoch) (modShot x.sid (fun y => { y with claimed := y.claimed + 1 }) s)
  | none => enterHome (.cal w s.cfg.epoch) s

/-- A window of a start input enters the start queue, or is lost where no engine serves it (R111). -/
def handStart (w : Win) (s : State) : State :=
  if startServers s = [] then (if w.reason = .cal then s else startLost w s)
  else { s with eng := { s.eng with startQ := s.eng.startQ ++ [if w.reason = .cal then .cal w s.cfg.epoch else .start w s.cfg.epoch] } }

/-- The next window that a bank's converter, or the start converter, hands over: by park instant, then by channel; those
parked before a TIME_SET's load come first (R78, R81). -/
def nextHandoff (s : State) (b : Nat) : Option Win :=
  (sortBy (fun w => (b2n (!w.carried) : Int)) (sortBy (fun w => (w.parkAt : Int)) (sortBy (fun w => (w.ch : Int))
    (s.samp.wins.filter fun w => groupOf w.ch == b && w.stage == .converted && !w.handed)))).head?

/-- WINDOW_HANDOFF (R78, R109, R111). -/
def execWindowHandoff (b : Nat) (s : State) : Out :=
  guardObj (decide (b < 9)) (match nextHandoff s b with
    | none => s
    | some w =>
      let wid := w.wid
      let s1 := { s with samp := { s.samp with
        wins := (s.samp.wins.map fun v => if v.wid = wid then { v with handed := true } else v).filter fun v => !(v.handed && v.rejoined) } }
      if 256 ≤ w.ch then handStart w s1
      else if w.reason = .cal then handCal w s1
      else match claimOf s w with
        | some sid => handReturn w sid s1
        | none => lateWindow w.ch none s1)

/-- STACKED_WINDOW_ENTER (R172). -/
def execStackedWindowEnter (c i : Nat) (s : State) : Out :=
  guardObj (decide (c < 256 ∧ i < 4)) (if domUp s 14 then
    (match takeStacked c i s with
      | (some w, s1) => enterHome (.stk w s1.cfg.epoch) s1
      | (none, s1) => s1) else s)

/-! ### Echoes (R122-R125) -/

/-- An echo of a candidate, before ToF, class and rank. -/
def echoOf (c sid : Nat) (stale : Bool) (k : Cand) : Echo :=
  { ch := c, sid := sid, e := k.e, amp := k.amp, width := k.width, sat := k.sat, lowconf := k.lowconf, indigo := k.indigo,
    stacked := false, stale := stale, rtag := k.rtag, foreignCode := false, sOwn := none, dirOwn := none, tof := 0, cls := 0,
    eidx := 0, gap := false, nearFlag := false }

/-- Work of epoch `ep` on a shot correlates its code by finish tasks (R113, R126). -/
def codedAt (s : State) (x : Shot) (ep : Nat) : Bool := decide (1 ≤ x.nsub) && codeEn (rdAt s ep)

/-- A shot is coded (R147). -/
def isCoded (s : State) (x : Shot) : Bool := codedAt s x x.epoch

/-- ToF before its clamp (R97). -/
def tofRaw (s : State) (x : Shot) (e : Echo) : Int :=
  let st := if x.sin < 4 then delayOf s x.frame (256 + x.sin) else 0
  e.e - e.sOwn.getD (x.s.getD (if x.sin < 4 then sinNom (rdAt s x.epoch) x.sin else 0)) - delayOf s x.frame e.ch + st

/-- ToF, with LOWCONF where it is clamped (R98). -/
def withTof (s : State) (x : Shot) (e : Echo) : Echo :=
  let t := tofRaw s x e
  { e with tof := (clampI 0 4194303 t).toNat, lowconf := e.lowconf || decide (t < 0) || decide (4194303 < t) }

/-- Echoes reach the home slice, or, of a late window, the histograms as SURFACE (R120, R161). -/
def putEchoes (x : Shot) (l : List Echo) (s : State) : State :=
  if x.released then
    (if (histMask (rd s)).testBit 0 then
      each l (fun e s => countEcho e.ch (e.dirOwn.getD (dirBin (rd s) x.angle)) (withTof s x e).tof s) s else s)
  else { s with eng := { s.eng with echoes := s.eng.echoes ++ l } }

/-- A window task (R122). -/
def doWin (w : Win) (sid ep : Nat) (s : State) : State :=
  match shotOf s sid with
  | none => s
  | some x =>
    let r := rdAt s ep
    let cal := calChAt s ep w.ch
    let f := frontSteps r cal false w
    let t := tplOf r x.em w.rtag
    let y := filterStep r x.em t f.2
    let l := candidates r x.em t (windowStart x w) w.rtag w.sat (w.reason == .indigo || w.reason == .both) w.codes
      (fun _ => candLevel r (greyAt s ep w.ch) w.rtag) f.2 y
    let s1 := if w.raw then putRawRec sid w s else s
    let s2 := if codedAt s x ep then
        (if x.released then s1
         else modShot sid (fun y => { y with coded := addNew y.coded w.ch })
           { s1 with eng := { s1.eng with cands := s1.eng.cands ++ l.map fun k => (sid, w.ch, w.wid, k) } })
      else putEchoes x (l.map (echoOf w.ch sid cal.held)) s1
    countDone (some sid) s2

/-- A stacked window: steps 4-10 with its own levels, S and direction (R172). Its records carry STACKED; INDIGO is that of
INDIGO and BOTH windows (R125; log entry 125). -/
def doStk (w : StkWin) (ep : Nat) (s : State) : State :=
  match shotOf s w.sid with
  | none => s
  | some x =>
    let r := rdAt s ep
    let t := tplOf r x.em w.rtag
    let y := filterStep r x.em t w.x
    let l := candLevel r (greyAt s ep w.ch) w.rtag
    let cs := candidates r x.em t w.first w.rtag w.sat false [] (fun i => stackLevel l (w.cnt.getD i 0)) w.x y
    let es := cs.map fun k =>
      { echoOf w.ch w.sid (calChAt s ep w.ch).held k with stacked := true, lowconf := k.lowconf || w.short, sOwn := some w.s, dirOwn := some w.dir }
    countDone (some w.sid) (putEchoes x es s)

/-- The candidate of greatest filter output among those of step 5. -/
def strongest (y : Vals) (l : List Nat) : Option Nat := (sortBy (fun n => -(at_ y n)) l).head?

/-- What the calibration phases take of a window: GAIN its step-6 amplitude with unity gain, ZERO its echo time, both with
the identity filter (R189, R191). -/
def calPhaseData (r : Rd) (ep : Nat) (w : Win) (s : State) : State :=
  let lvl := if w.ch < 256 then candLevel r (greyAt s ep w.ch) w.rtag else (candFloor r : Int)
  let ph := (calGrp s (groupOf w.ch)).phase
  let pulse := s.cal.gated.contains (w.ch, w.slot, w.calSid)
  if ¬ pulse then s
  else if ph = 4 then
    let x := (frontSteps r (calChAt s ep w.ch) true w).2
    match strongest x (step5 (fun _ => lvl) x) with
    | some n => let a := peakAmp x n; gainAdd w.ch w.rtag (roundAway (a.1 * 8192) a.2) s
    | none => s
  else if ph = 5 then
    let x := (frontSteps r (calChAt s ep w.ch) false w).2
    match strongest x (step5 (fun _ => lvl) x) with
    | some n => zeroAdd w.ch w.first (candidate ⟨0, w.rtag, 0, 0, w.sat, maskPos w.codes, maskNeg w.codes, false⟩ x x n).e s
    | none => s
  else s

/-- A calibration window: steps 1-7 for the grey estimate and the phase in hand (R482). -/
def doCal (w : Win) (ep : Nat) (s : State) : State :=
  let r := rdAt s ep
  let f := frontSteps r (calChAt s ep w.ch) false w
  let x := w.calSid.bind (shotOf s)
  let y := match x with
    | some x => filterStep r x.em (tplOf r x.em w.rtag) f.2
    | none => f.2
  let s1 := calPhaseData r ep w (greyTake ep w f.1 y x.isSome s)
  let s2 := match w.calSid with
    | some sid => if w.raw then putRawRec sid w s1 else s1
    | none => s1
  if w.ch < 256 then countDone w.calSid s2 else s2

/-! ### Finish tasks (R126, R127, R486) -/

/-- Of a list of numbered candidates, the one nearest to time `e` within `tol`, the earlier on a tie, not number `a`. -/
def partner (l : List (Nat × Cand)) (used : List Nat) (a : Nat) (e : Int) (tol : Nat) : Option (Nat × Cand) :=
  (sortBy (fun p => ((p.2.e - e).natAbs : Int))
    (l.filter fun p => p.1 != a && !used.contains p.1 && decide ((p.2.e - e).natAbs ≤ tol))).head?

/-- Code correlation of candidates in order of E: the echoes and the candidates left unused. -/
def correlate (tol : Nat) (o2 o3 : Option Int) : List (Nat × Cand) → List (Nat × Cand) → List Nat → List Cand × List Nat
  | _, [], used => ([], used)
  | l, a :: rest, used =>
    if used.contains a.1 then correlate tol o2 o3 l rest used
    else
      let find := fun (o : Option Int) => o.map fun v => partner l used a.1 (a.2.e + v) tol
      match find o2, find o3 with
      | some none, _ => correlate tol o2 o3 l rest used
      | _, some none => correlate tol o2 o3 l rest used
      | b, d =>
        let tb := (b.bind id).map fun p => (p.1, p.2, p.2.e - o2.getD 0)
        let td := (d.bind id).map fun p => (p.1, p.2, p.2.e - o3.getD 0)
        let ts := (a.1, a.2, a.2.e) :: (tb.toList ++ td.toList)
        let k : Cand := { a.2 with
          e := roundAway (sumI (ts.map fun t => t.2.2)) ts.length
          amp := (roundAway (sumI (ts.map fun t => ((t.2.1.amp : Nat) : Int))) ts.length).toNat
          sat := ts.any fun t => t.2.1.sat
          lowconf := ts.any fun t => t.2.1.lowconf }
        let r := correlate tol o2 o3 l rest (used ++ ts.map fun t => t.1)
        (k :: r.1, r.2)

/-- Offset of edge j + 1 from edge 1, LSB: as measured, else from the computed edges; none where not driven (R127). -/
def edgeOffset (x : Shot) (j : Nat) (measured : Option Int) : Option Int :=
  if x.fate.getD j 2 ≠ 1 then none
  else some (match x.sStamp, x.s, measured with
    | some _, some v, some o => o - v
    | _, _, _ => roundAway ((((x.edges.getD j 0 : Nat) : Int) - x.edges.getD 0 0) * 512) 10)

/-- A finish task's echoes and unused candidates (R127, R148). -/
def doFin (sid c ep : Nat) (s : State) : State :=
  match shotOf s sid with
  | none => s
  | some x =>
    let mine := fun (p : Nat × Nat × Nat × Cand) => p.1 == sid && p.2.1 == c
    let l := (sortBy (fun k => k.e) ((s.eng.cands.filter mine).map fun p => p.2.2.2)).zipIdx.map fun p => (p.2, p.1)
    let r := correlate (codeTol (rdAt s ep)) (edgeOffset x 1 x.o2) (edgeOffset x 2 x.o3) l l []
    let stale := (calChAt s ep c).held
    let es := r.1.map (echoOf c sid stale) ++ ((l.filter fun p => !r.2.contains p.1).map fun p => { echoOf c sid stale p.2 with foreignCode := true })
    let s1 := { s with eng := { s.eng with cands := s.eng.cands.filter fun p => !mine p } }
    modShot sid (fun y => { y with finOut := remNat y.finOut c }) (if x.released then s1 else putEchoes x es s1)

/-- The ramp cycle that converts windows parked at L_n has ended, and they are handed over (R119, R126). -/
def windowsIn (s : State) (x : Shot) : Bool :=
  (match s.samp.conv with | some (k, e) => decide (x.rampAt < k) || (decide (k = x.rampAt) && e) | none => false) &&
  s.samp.wins.all fun w => w.handed || !x.group.contains w.ch || (w.reason == .cal && w.calSid != some x.sid) ||
    (if w.stage = .reserved then decide (shotTime x x.listenEnd < 128 * w.parkAt) else !w.carried && decide (x.rampAt ≤ w.cycle))

/-- A task of a list is a window of channel `c` and shot `sid`. -/
def isWinOf (sid c : Nat) (t : Task) : Bool := match t with | .win w n _ => n == sid && w.ch == c | _ => false

/-- Every task held by the engines. -/
def allTasks (s : State) : List Task := s.eng.engines.flatMap fun p => p.2.queue ++ p.2.cur.toList

/-- FINISH_TASK_CREATE (R126); on a full queue it takes a window's slot, or waits (R486). -/
def execFinishTaskCreate (sid c : Nat) (s : State) : Out :=
  guardObj (decide (c < 256)) (match shotOf s sid with
    | none => s
    | some x =>
      if ¬ x.ended ∨ x.released ∨ ¬ windowsIn s x ∨ ¬ x.coded.contains c ∨ x.finMade.contains c ∨ (allTasks s).any (isWinOf sid c) then s
      else match homeEngine s c with
        | none => s
        | some k =>
          let s1 := modShot sid (fun y => { y with finMade := y.finMade ++ [c], finOut := y.finOut ++ [c] }) s
          let q := (engine s k).queue
          let ep := s.cfg.epoch
          if q.length < 64 then pushTask k (.fin sid c ep) s1
          else match shedPick s (q.filter fun u => !isFin u) with
            | some v => pushTask k (.fin sid c ep) (eraseTask k v (shedTask v s1))
            | none => { s1 with eng := { s1.eng with finWait := s1.eng.finWait ++ [(sid, c, ep)] } })

/-- FINISH_TASK_ENTER: the first finish task that waits on engine `k`'s queue (R486). -/
def execFinishTaskEnter (k : Nat) (s : State) : Out :=
  guardObj (decide (k < 64)) (if (engine s k).queue.length < 64 then
    (match s.eng.finWait.find? fun p => homeEngine s p.2.1 == some k with
      | some p => pushTask k (.fin p.1 p.2.1 p.2.2) { s with eng := { s.eng with finWait := s.eng.finWait.erase p } }
      | none => s) else s)

/-! ### Engines at work (R110-R112, R121) -/

/-- An engine may take a task. -/
def engineIdle (s : State) (k : Nat) : Bool := engineUp s k && (engine s k).cur.isNone && !(engine s k).retired && !(engine s k).reload

/-- A task may start: its home slice has room (R121). -/
def mayStart (s : State) (t : Task) : Bool := match homeQuarter s (taskCh t) with | some q => !sliceFull s q | none => true

/-- ENGINE_TAKE_TASK (R110, R111). -/
def execEngineTakeTask (k : Nat) (s : State) : Out :=
  guardObj (decide (k < 64)) (if ¬ engineIdle s k then s
    else match (if (startServers s).contains k then s.eng.startQ else []) with
      | t :: r => modEngine k (fun e => { e with cur := some t }) { s with eng := { s.eng with startQ := r } }
      | [] => match (engine s k).queue.find? (mayStart s) with
        | some t => modEngine k (fun e => { e with cur := some t, queue := e.queue.erase t }) s
        | none => s)

/-- Victims of a thief (R112): a retired engine's queue is open to all, whatever STEAL_EN. -/
def victims (r : Rd) (s : State) (i : Nat) : List Nat :=
  let ok := fun j => j != i && engineUp s j &&
    (if (engine s j).retired then decide (1 ≤ (engine s j).queue.length) else stealEn r && decide (stealThr r ≤ (engine s j).queue.length))
  let near := (List.range 64).filter fun j => quarterOf j == quarterOf i && ok j
  if near = [] then (List.range 64).filter ok else near

/-- The victim chosen: largest count, then nearest, then lowest. -/
def victimOf (r : Rd) (s : State) (i : Nat) : Option Nat :=
  (sortBy (fun j => -((engine s j).queue.length : Int)) (sortBy (fun (j : Nat) => (((j : Int) - i).natAbs : Int)) (victims r s i))).head?

/-- STEAL (R112). -/
def execSteal (i : Nat) (s : State) : Out :=
  guardObj (decide (i < 64)) (if engineIdle s i && (engine s i).queue.isEmpty then
    (match victimOf (rd s) s i with
      | none => s
      | some j =>
        let n := min (stealBatch (rd s)) (engine s j).queue.length
        let got := (engine s j).queue.take n
        modEngine i (fun e => { e with queue := e.queue ++ got, stolen := wrapAdd 32 e.stolen n })
          (modEngine j (fun e => { e with queue := e.queue.drop n }) s)) else s)

/-- What a window task does. -/
def doTask (t : Task) (s : State) : State :=
  match t with
  | .win w sid ep => doWin w sid ep s
  | .cal w ep => doCal w ep s
  | .stk w ep => doStk w ep s
  | .start w ep => doStart w ep s
  | .fin sid c ep => doFin sid c ep s

/-- The task in hand ends if `p` holds of it. -/
def endTask (k : Nat) (p : Task → Bool) (s : State) : State :=
  match (engine s k).cur with
  | some t => if p t then noteFull (doTask t (modEngine k (fun e => { e with cur := none }) s)) else s
  | none => s

/-- WINDOW_TASK_DONE (R122). -/
def execWindowTaskDone (k : Nat) (s : State) : Out := guardObj (decide (k < 64)) (endTask k (fun t => !isFin t) s)

/-- FINISH_TASK_DONE (R127). -/
def execFinishTaskDone (k : Nat) (s : State) : Out := guardObj (decide (k < 64)) (endTask k isFin s)

/-! ### Memory errors and microcode (R128, R130, R136) -/

/-- A task is discarded on an uncorrectable error. -/
def dropEcc (t : Task) (s : State) : State :=
  match t with
  | .start w _ => startLost w s
  | .fin sid c _ =>
    let s1 := { s with eng := { s.eng with cands := s.eng.cands.filter fun p => !(p.1 == sid && p.2.1 == c) } }
    modShot sid (fun y => { y with finOut := remNat y.finOut c })
      (noteLoss c (some sid) (hdrLost (modEngCh c (fun x => { x with eccDrop := satAdd 8 x.eccDrop 1 }) s1)))
  | t =>
    let c := taskCh t
    if 256 ≤ c then s
    else noteLoss c (taskSid t) (countShed (taskSid t) (hdrLost (modEngCh c (fun x => { x with eccDrop := satAdd 8 x.eccDrop 1 }) s)))

def dropCur (k : Nat) (s : State) : State :=
  match (engine s k).cur with
  | some t => dropEcc t (modEngine k (fun e => { e with cur := none }) s)
  | none => s

/-- Engine that counts an error of a memory: its own, or the lowest of the quarter; stack memory's as a shared memory's, of the
quarter that met the error (R130, R157; log entry 130). -/
def eccOwner (k : Nat) (m : EccMem) : Nat := match m with | .sharedMem | .stackMem => 16 * (k / 16) | .localMem | .queueMem => k

/-- A memory's domain is up: the engine's quarter, and D14 for stack memory. -/
def eccUp (s : State) (k : Nat) (m : EccMem) : Bool := engineUp s k && (m != .stackMem || domUp s 14)

/-- ECC_SINGLE (R130). -/
def execEccSingle (k : Nat) (m : EccMem) (s : State) : Out :=
  guardObj (decide (k < 64)) (if eccUp s k m then
    raiseOpen 1 (eccOwner k m) (modEngine (eccOwner k m) (fun e => { e with eccCorr := satAdd 8 e.eccCorr 1 }) s) else s)

/-- ECC_DOUBLE (R130). -/
def execEccDouble (k : Nat) (m : EccMem) (readers : List Nat) (s : State) : Out :=
  guardObj (decide (k < 64)) (if eccUp s k m then
    let o := eccOwner k m
    let s1 := raiseOpen 1 o (modEngine o (fun e => { e with eccUnc := satAdd 8 e.eccUnc 1 }) s)
    match m with
    | .sharedMem => each (readers.filter fun j => decide (j / 16 = k / 16)) dropCur s1
    | .stackMem => each readers dropCur s1
    | .localMem | .queueMem => modEngine k (fun e => { e with reload := true }) (dropCur k s1)
    else s)

/-- ENGINE_RELOAD_DONE (R130, R131). -/
def execEngineReloadDone (k : Nat) (s : State) : Out :=
  guardObj (decide (k < 64)) (if engineUp s k then modEngine k (fun e => { e with reload := false }) s else s)

/-- The versions of an activation's other parts enter service (R422). -/
def versSwap (s : State) : State :=
  match s.upd.versNext with
  | some v => { s with upd := { s.upd with versEng := v.1, versStr := v.2.1, versLnk := v.2.2, versNext := none } }
  | none => s

/-- The banks swap in every powered quarter, and with them the other parts of the image: work handed over from now on runs the
new ones (R25, R128, R422). -/
def microSwap (s : State) : State :=
  if s.eng.slateReady then versSwap { s with eng := { s.eng with
    mcActive := s.eng.mcSlate, mcSlate := 0, slateReady := false, mcSince := s.cfg.epoch
    stores := s.eng.stores.map fun p => (p.1, (p.2.2, p.2.1)) } }
  else s

/-- Work from before the latest swap still runs from the bank that would be written (R25). -/
def oldBankBusy (s : State) : Bool := (allTasks s ++ s.eng.startQ).any fun t => decide (taskEpoch t < s.eng.mcSince)

end Sys2Proof.Machine
end

