-- ==== Sys2Proof/Machine/Link.lean ====
section
/-!
DEFINITION. The stream link (R341-R365): training, lanes, credits, cargo frames and control blocks.
-/

namespace Sys2Proof.Machine

/-! ### Lanes -/

def txLaneList (s : State) : List Nat := List.range (txLanes (rd s))
def rxLaneList (s : State) : List Nat := List.range (rxLanes (rd s))

/-- The link operates: enabled, with D15 and D16 up (R355). -/
def linkOn (s : State) : Bool := linkEn (rd s) && domUp s 15 && domUp s 16

/-- The host has stopped every configured lane of a direction (R359). -/
def linkStopped (s : State) : Bool :=
  (txLaneList s).all (fun k => decide ((lane s k).txState = 2)) || (rxLaneList s).all fun k => decide ((lane s k).rxState = 3)

/-- TX_USE of a link that comes up: active lanes, without degraded ones where the link re-stripes, one at the least (R362). -/
def lanesToUse (s : State) : List Nat :=
  let l := (txLaneList s).filter fun k => decide ((lane s k).txState = 0)
  let g := l.filter fun k => !(lane s k).degraded
  if restripeEn (rd s) then (if g = [] then l.take 1 else g) else l

/-! ### Control blocks sent (R348) -/

/-- Control blocks on the wire. -/
def sendCtl (typ lane : Nat) (content : List Nat) (s : State) : State :=
  { s with link := { s.link with ctl := s.link.ctl ++ [⟨typ, lane, content⟩] } }

/-- First frame number from `j` on that goes to lane `k` of `use` (R345). -/
def nextLfn (use : List Nat) (k j : Nat) : Nat := j + (use.findIdx (· == k) + use.length - j % use.length) % use.length

/-- ALIGN markers on every lane of `use`, between two frames: FOFS 0 (log entry 63). -/
def alignAll (use : List Nat) (s : State) : State :=
  each use (fun k s =>
    let n := nextLfn use k s.link.lfn % 65536
    sendCtl 0x2D k [k, use.length, n % 256, n / 256, 0, maskOf use, devIdx s] s) s

/-- Stage a TX lane's TRAIN blocks tell: the link's, or that of a lane pair which trains alone (R355, R357). -/
def trainStage (s : State) (k : Nat) : Nat :=
  match s.link.st with
  | .detect => 1
  | .train => 2
  | .align => 3
  | .up => if (lane s k).retrain = 1 then 2 else if (lane s k).retrain = 2 then 3 else 0
  | .off | .down => 0

/-- Every configured RX lane has seen two right markers: ACK is sent (R355). -/
def alignedIn (s : State) : Bool := (rxLaneList s).all fun k => decide (2 ≤ (lane s k).aligns)

/-- Content of the TRAIN blocks on a configured TX lane, none where none are sent. What the receiver of lane `k` asks of its
partner's equaliser is the operand: adaptation is analogue (R348, R355, R356). -/
def trainContent (s : State) (k reqPre reqPost : Nat) : Option (List Nat) :=
  let st := trainStage s k
  if st = 0 ∨ txLanes (rd s) ≤ k ∨ (lane s k).txState ≠ 0 then none
  else
    let ready := if s.link.st = .up then decide ((lane s k).retrain = 2) else s.link.rxReady
    let x := lane s k
    some [st + 8 * b2n ready + 16 * b2n (decide (st = 3) && alignedIn s), k + 8 * linkRate (rd s) + 16 * (txLanes (rd s) - 1),
      reqPre % 4 + 4 * (reqPost % 4), k, x.pre + 16 * x.post, 0, 0]

/-! ### States (R355, R356) -/

/-- A change of the link's state sets source LINK. -/
def setLink (st : LinkState) (s : State) : State :=
  let t := { s with link := { s.link with since := s.sys.now } }
  if s.link.st = st then t else irq 9 { t with link := { t.link with st := st } }

/-- A LANE_STATE request whose lanes had not yet fallen asleep when the link left UP is answered TIMEOUT (log entry 64). -/
def dropLaneReq (s : State) : State :=
  match s.link.laneReq with
  | some q => replyTo 0x22 q 11 [] { s with link := { s.link with laneReq := none } }
  | none => s

/-- Training starts afresh on every lane; lanes asleep are active again, stopped ones stay. -/
def enterDetect (s0 : State) : State :=
  let s := dropLaneReq s0
  setLink .detect { s with link := { s.link with
    rxReady := false, txUse := []
    lanes := (s.link.lanes.map fun p => (p.1, { p.2 with
      retrain := 0, partner := false, partnerReady := false, partnerAck := false, aligns := 0, txLeaving := false
      txState := if p.2.txState = 2 then 2 else 0, rxState := if p.2.rxState = 3 then 3 else 0 })).filter fun p => p.2 != Lane.reset } }

/-- LINK_DOWN: nothing is sent. -/
def enterDown (s0 : State) : State :=
  let s := dropLaneReq s0
  setLink .down { s with link := { s.link with txUse := [] } }

/-- UP: frame numbers and credits restart (R345, R350, R363); the 64 frames of the receive buffer are free. -/
def enterUp (s : State) : State :=
  setLink .up { s with link := { s.link with
    lfn := 0, sent := [], cum := [], ownCum := 64, ownSent := 0, txUse := lanesToUse s, rx := none, rxQ := [], turn := 0, teleAt := s.sys.now
    ready := tset [] s.link.ready 3 [] } }

/-- The exit condition of the training state the link is in, and the state it leads to. -/
def linkExit (s : State) : Option LinkState :=
  let rx := fun (p : Lane → Bool) => (rxLaneList s).all fun k => p (lane s k)
  match s.link.st with
  | .detect => if rx (fun l => l.lock && l.partner) then some .train else none
  | .train => if s.link.rxReady && (txLaneList s).all (fun k => (lane s k).partnerReady) then some .align else none
  | .align => if rx (fun l => decide (2 ≤ l.aligns) && l.partnerAck) then some .up else none
  | .off | .up | .down => none

/-- Lanes' marker counts start from 0. -/
def clearAligns (s : State) : State := each (rxLaneList s) (fun k => modLane k fun l => { l with aligns := 0, partnerAck := false }) s

/-- The link takes the exit it may take. -/
def linkStep (s : State) : State :=
  match linkExit s with
  | some .up => settle (enterUp s)
  | some .align => setLink .align (clearAligns s)
  | some st => setLink st { s with link := { s.link with rxReady := false } }
  | none => s

/-- The link with the parameters and domains as they stand: OFF, or operation from DETECT. -/
def linkPower (s : State) : State :=
  if ¬ linkOn s then
    let t := dropLaneReq s
    setLink .off { t with link := { t.link with txUse := [], rxReady := false, rx := none, rxQ := [] } }
  else if s.link.st = .off then (if linkStopped s || s.pwr.lrefLost then enterDown s else enterDetect s)
  else s

/-- LNK's crossing: a change of rate or lane counts takes the link through DETECT (R363). -/
def linkSwap (r0 : Rd) (s : State) : State :=
  let r := rd s
  let s1 := linkPower s
  if linkOn s ∧ s.link.st ≠ .off ∧ (linkRate r0 ≠ linkRate r ∨ txLanes r0 ≠ txLanes r ∨ rxLanes r0 ≠ rxLanes r) then
    (if linkStopped s1 || s1.pwr.lrefLost then enterDown s1 else enterDetect s1)
  else s1

/-- LINK_STATE_TRANSITION (R355). -/
def execLinkStateTransition (s : State) : Out := .next (if linkOn s then linkStep s else s)

/-- LINK_STAGE_TIMEOUT, 100 ms after the stage began: an exit met in the same cycle is taken (R356, R13). -/
def execLinkStageTimeout (s : State) : Out :=
  .next (if ¬ linkOn s then s
    else if (linkExit s).isSome then linkStep s
    else
      let t := advNow (s.link.since + ns 100000000) s
      match s.link.st with
      | .detect => enterDown { t with link := { t.link with retries := satAdd 16 t.link.retries 1 } }
      | .train | .align => enterDetect { t with link := { t.link with trainTo := satAdd 16 t.link.trainTo 1 } }
      | .off | .up | .down => s)

/-- An RX lane that should hold block lock does: active, not in training of its own (R357, R359). -/
def keepsLock (s : State) (k : Nat) : Bool := decide ((lane s k).rxState = 0) && (lane s k).lock

/-- LINK_LOCK_LOSS: no lock on any RX lane for 1 ms; lanes in LIGHT or DEEP have lost none (R355, R360). -/
def execLinkLockLoss (s : State) : Out :=
  let ks := (rxLaneList s).filter fun k => decide ((lane s k).rxState = 0)
  .next (if s.link.st = .up ∧ ks ≠ [] then enterDetect (each ks (fun k => modLane k fun l => { l with lock := false }) s) else s)

/-- LINK_DOWN_RETRY, 1 s after entry (R355, R359, R415). -/
def execLinkDownRetry (s : State) : Out :=
  .next (if linkOn s ∧ s.link.st = .down ∧ ¬ linkStopped s ∧ ¬ s.pwr.lrefLost then
    enterDetect (advNow (s.link.since + ns 1000000000) s) else s)

/-- LANE_LOCK_LOSS: in UP one lane trains alone while another keeps lock (R357, R361). -/
def execLaneLockLoss (k : Nat) (s : State) : Out :=
  guardObj (decide (k < 8)) (if s.link.st = .up ∧ k < rxLanes (rd s) ∧ (lane s k).rxState = 0 ∧ (lane s k).retrain = 0
      ∧ (rxLaneList s).any (fun j => j != k && keepsLock s j) then
    irq 9 (raiseOpen 2 k (modLane k (fun l => { l with lock := false, retrain := 1, aligns := 0, partnerAck := false }) s)) else s)

/-- BLOCK_LOCK_LOST: in TRAIN or ALIGN, DETECT at once (R356). -/
def execBlockLockLost (k : Nat) (s : State) : Out :=
  guardObj (decide (k < 8)) (if ¬ linkOn s ∨ rxLanes (rd s) ≤ k then s
    else
      let s1 := modLane k (fun l => { l with lock := false }) s
      if s.link.st = .train ∨ s.link.st = .align then enterDetect s1 else s1)

/-- RX_ADAPTATION_COMPLETE: RX_READY is sent; in UP, of the lanes that train alone (R355, R357). -/
def execRxAdaptationComplete (s : State) : Out :=
  .next (if s.link.st = .train then { s with link := { s.link with rxReady := true } }
    else if s.link.st = .up then
      each ((rxLaneList s).filter fun k => decide ((lane s k).retrain = 1)) (fun k => modLane k fun l => { l with retrain := 2, aligns := 0, lock := true }) s
    else s)

/-! ### Blocks received -/

/-- RX lane `k` receives: configured, in service, its domain up. -/
def laneHears (s : State) (k : Nat) : Bool :=
  linkOn s && s.link.st != .off && s.link.st != .down && decide (k < rxLanes (rd s)) && decide ((lane s k).rxState = 0)

/-- INVALID_BLOCK (R342, R348). -/
def execInvalidBlock (k : Nat) (s : State) : Out :=
  guardObj (decide (k < 8)) (if laneHears s k then modLane k (fun l => { l with rxSync := satAdd 16 l.rxSync 1 }) s else s)

/-- One equaliser step: 1 up, 2 down, not past the range (R356). -/
def eqStep (req most v : Nat) : Nat := if req = 1 then min most (v + 1) else if req = 2 then v - 1 else v

/-- TRAIN: block lock, the partner's rate and lanes, its RX_READY and request for device lane TGT, its ACK (R355, R356). -/
def execTrain (k : Nat) (b : TrainBlock) (s : State) : Out :=
  guardObj (decide (k < 8)) (if ¬ laneHears s k then s
    else
      let same := decide (b.rate = linkRate (rd s)) && decide (b.lanesM1 + 1 = rxLanes (rd s))
      let s1 := modLane k (fun l => { l with lock := true, partner := same, partnerAck := l.partnerAck || (b.ack && decide (b.stage = 3)) }) s
      if b.tgt < txLanes (rd s) then
        modLane b.tgt (fun l => { l with partnerReady := b.rxReady, pre := eqStep b.reqPre 7 l.pre, post := eqStep b.reqPost 15 l.post }) s1
      else s1)

/-- ALIGN: markers with the right lane number are counted; a lane that trained alone is back at the second (R355, R357). -/
def execAlign (k : Nat) (b : AlignBlock) (s : State) : Out :=
  guardObj (decide (k < 8)) (if ¬ laneHears s k then s
    else
      let good := decide (b.lane = k) && decide (b.lanes = popBits 8 b.mask)
      let s1 := modLane k (fun l => { l with lock := true, aligns := if good then l.aligns + 1 else 0 }) s
      if s.link.st = .up ∧ (lane s k).retrain = 2 ∧ 2 ≤ (lane s1 k).aligns then irq 9 (modLane k (fun l => { l with retrain := 0 }) s1)
      else s1)

/-- CREDIT (R350). -/
def execCredit (vs cum : Nat) (s : State) : Out :=
  guardObj (decide (vs < 16)) (if s.link.st ≠ .up ∨ 5 ≤ vs then s
    else if 32768 ≤ (cum + 65536 - tget 0 s.link.sent vs) % 65536 then
      { s with link := { s.link with credErr := satAdd 8 s.link.credErr 1 } }
    else { s with link := { s.link with cum := tset 0 s.link.cum vs (cum % 65536) } })

/-- LANE_ERR: each unit of growth of the host's count is an event of lane `k` (R361). -/
def execLaneErr (k count : Nat) (s : State) : Out :=
  guardObj (decide (k < 8)) (if s.link.st ≠ .up then s
    else each (List.range (count % 65536 - (lane s k).txRpt)) (fun _ => raiseOpen 2 k) (modLane k (fun l => { l with txRpt := count % 65536 }) s))

/-- CARGO_FRAME_RECEIVE (R350, R354). A frame beyond the 64 of the receive buffer has no place and is discarded. -/
def execCargoFrameReceive (k : Nat) (b : List Byte) (s : State) : Out :=
  guardObj (decide (k < 8)) (if s.link.st ≠ .up ∨ ¬ laneHears s k ∨ b.length ≠ 264 then s
    else
      let dropped := fun (s : State) => { s with link := { s.link with rxDrop := satAdd 16 s.link.rxDrop 1 } }
      let h := ofLe (b.take 4)
      if ofLe (b.drop 260) ≠ crc32c (b.take 260) then
        raiseOpen 2 k (modLane k (fun l => { l with rxCrc := satAdd 16 l.rxCrc 1 })
          (settle (dropped { s with link := { s.link with
            rxQ := s.link.rxQ ++ [none], ownCum := if h % 16 = 3 then wrapAdd 16 s.link.ownCum 1 else s.link.ownCum } })))
      else if h % 16 ≠ 3 ∨ 64 ≤ s.link.rxQ.countP (fun f => f.isSome) then dropped s
      else settle { s with link := { s.link with rxQ := s.link.rxQ ++ [some (h.testBit 4, (b.drop 4).take (4 * (nfld h 13 8 + 1)))] } })

/-! ### Frames sent (R344-R353) -/

/-- A stream may start a frame (R350). -/
def hasCredit (s : State) (v : Nat) : Bool :=
  let d := (tget 0 s.link.cum v + 65536 - tget 0 s.link.sent v) % 65536
  decide (1 ≤ d) && decide (d ≤ 32767)

/-- The oldest reply that leaves on the link goes into frames, its slot held until the last is sent (R351). -/
def loadCtrl (s : State) : State :=
  if s.link.st = .up && (tget [] s.link.ready 3).isEmpty then
    (match s.port.replies.find? fun r => r.org == .link with
      | some r => linkFresh 3 false false (replyBytes r) s
      | none => s)
  else s

/-- A stream has a frame to send: full, closed, or with the next record behind it (R347). -/
def hasFrame (s : State) (v : Nat) : Bool :=
  match tget [] s.link.ready v with
  | f :: r => f.closed || !r.isEmpty || (v == 3 && decide (2 ≤ (s.port.replies.filter fun p => p.org == .link).length))
  | [] => false

/-- The stream that sends next: CTRL, TELE, then ECHO, WAVE and HIST in turn (R352). -/
def nextStream (s : State) : Option Nat :=
  [3, 4, s.link.turn % 3, (s.link.turn + 1) % 3, (s.link.turn + 2) % 3].find? fun v => hasFrame s v && hasCredit s v

/-- The header word of a cargo frame (R345). -/
def cargoHdr (lfn vs : Nat) (f : Ready) : Nat :=
  put lfn 16 16 + put ((f.bytes.length + 3) / 4 - 1) 6 8 + put (b2n f.rt) 1 6 + put (b2n f.fh) 1 5 + put (b2n f.sor) 1 4 + put vs 4 0

/-- The 264 bytes of a cargo frame (R344). -/
def cargoBytes (lfn vs : Nat) (f : Ready) : List Byte :=
  let b := leBytes 4 (cargoHdr lfn vs f) ++ f.bytes ++ List.replicate (256 - f.bytes.length) 0
  b ++ leBytes 4 (crc32c b)

/-- A reply slot comes free once the last frame of the link's reply has left. -/
def ctrlSent (s : State) : State :=
  if (tget [] s.link.ready 3).isEmpty then
    (match s.port.replies.find? fun r => r.org == .link with
      | some r => settle { s with port := { s.port with replies := s.port.replies.erase r } }
      | none => s)
  else s

/-- CARGO_FRAME_SEND. -/
def execCargoFrameSend (s : State) : Out :=
  .next (if s.link.st ≠ .up ∨ s.link.txUse = [] then s
    else
      let s1 := loadCtrl s
      match nextStream s1 with
      | none => s1
      | some v =>
        match tget [] s1.link.ready v with
        | [] => s1
        | f :: r =>
          let k := s1.link.txUse.getD (s1.link.lfn % s1.link.txUse.length) 0
          let c : Cargo := ⟨k, s1.link.lfn % 65536, v, (f.bytes.length + 3) / 4 - 1, f.fh, f.sor, f.rt, cargoBytes s1.link.lfn v f⟩
          let s2 := { s1 with link := { s1.link with
            lfn := s1.link.lfn + 1, framesTx := wrapAdd 32 s1.link.framesTx 1, sent := tmod 0 s1.link.sent v (fun n => wrapAdd 16 n 1)
            ready := tset [] s1.link.ready v r, turn := if v < 3 then (v + 1) % 3 else s1.link.turn, out := s1.link.out ++ [c] } }
          noteFull (if v = 3 then ctrlSent s2 else s2))

/-- CREDIT_SEND: CUM of CTRL (R348, R350). -/
def execCreditSend (s : State) : Out :=
  .next (match s.link.st, s.link.txUse with
    | .up, k :: _ => sendCtl 0x55 k [3, s.link.ownCum % 256, s.link.ownCum / 256, 0, 0, 0, 0] { s with link := { s.link with ownSent := s.link.ownCum } }
    | _, _ => s)

/-- ALIGN_MARKER_SEND: on every active lane, in ALIGN and UP (R348, R355). -/
def execAlignMarkerSend (s : State) : Out :=
  .next (match s.link.st with
    | .up => alignAll s.link.txUse s
    | .align => alignAll (lanesToUse s) s
    | .off | .detect | .train | .down => s)

/-- REFRESH_BURST: 16 blocks on each active lane (R355, R358). -/
def execRefreshBurst (s : State) : Out :=
  let burst := fun (l : List Nat) => each l (fun k s => each (List.range 16) (fun _ => sendCtl 0x33 k [0x55, 0xAA, 0x33, 0xCC, 0x0F, 0xF0, 0x96]) s) s
  .next (match s.link.st with
    | .up => burst s.link.txUse
    | .detect | .train | .align => burst ((txLaneList s).filter fun k => decide ((lane s k).txState = 0))
    | .off | .down => s)

/-! ### Telemetry frames (R353) -/

/-- Version and value of a telemetry item: DEVTIME's is DEVTIME itself, the others stand in the mirror (R295, R298). -/
def itemOf (s : State) (tag : Nat) : Nat × Nat :=
  if tag = 0 then
    let d := if domOn s 9 then devtime s else s.sys.devtimeHeld
    (d / 1024, d / 1024 % 2 ^ 24)
  else if tag = 0x3F then (0, 0)
  else tget (0, 0) s.port.items tag

/-- Tag and FRESH of a list position (R299). -/
def tlTag (s : State) (p : Nat) : Nat := tget 0 s.port.tl p % 128
def tlFresh (s : State) (p : Nat) : Bool := (tget 0 s.port.tl p).testBit 7

/-- A telemetry word. -/
def telWord (u : Bool) (tag v : Nat) : Nat := put (b2n u) 1 31 + put tag 7 24 + v % 2 ^ 24

/-- TELE_FRAME_BUILD, TELE_US after the last: one word a position, U where its item has had no new value since (R351,
R353). -/
def execTeleFrameBuild (s0 : State) : Out :=
  let t := advNow (s0.link.teleAt + ns (1000 * teleUs (rd s0))) s0
  let s := { t with link := { t.link with teleAt := t.sys.now } }
  .next (if s0.link.st ≠ .up ∨ teleUs (rd s0) = 0 then s0
    else if ¬ hasCredit s 4 then { s with link := { s.link with teleSkip := satAdd 8 s.link.teleSkip 1 } }
    else
      let ps := List.range (s.port.tlLenM1 + 1)
      let ws := ps.flatMap fun p =>
        let i := itemOf s (tlTag s p)
        leBytes 4 (telWord (i.1 == tget 0 s.port.teleVer (tlTag s p)) (tlTag s p) i.2)
      { s with
        link := { s.link with ready := tmod [] s.link.ready 4 fun l => l ++ [⟨false, true, false, ws, true⟩] }
        port := { s.port with teleVer := (List.range 128).foldl (fun t g => tset 0 t g (itemOf s g).1) s.port.teleVer } })

/-- PART_FRAME_FLUSH, FLUSH_NS after the stream's latest record: its open frame takes no further one (R347). -/
def execPartFrameFlush (v : Nat) (s : State) : Out :=
  guardObj (decide (v < 16)) (
    let t := if (tget [] s.link.ready v).any fun f => !f.closed then advNow (tget 0 s.link.fed v + ns (flushNs (rd s))) s else s
    { t with link := { t.link with ready := tmod [] t.link.ready v closeAll } })

/-! ### Sleep, stop, degradation (R359-R362) -/

/-- A lane leaves TX_USE; the remaining lanes tell the new mask where `mark`. -/
def leaveUse (k : Nat) (mark : Bool) (s : State) : State :=
  let use := remNat s.link.txUse k
  let s1 := { s with link := { s.link with txUse := use } }
  if mark && s.link.txUse.contains k then alignAll use s1 else s1

/-- A lane rejoins TX_USE, with ALIGN markers. -/
def joinUse (k : Nat) (s : State) : State :=
  if s.link.st = .up ∧ ¬ s.link.txUse.contains k ∧ (lanesToUse s).contains k then
    let use := insBy (fun (n : Nat) => (n : Int)) s.link.txUse k
    alignAll use { s with link := { s.link with txUse := use } }
  else s

/-- TX_SLEEP_ENTRY: 16 SLEEP blocks and out of TX_USE; the request is answered with its last lane (R359, R360). -/
def execTxSleepEntry (k : Nat) (s : State) : Out :=
  guardObj (decide (k < 8)) (if ¬ (lane s k).txLeaving then s
    else
      let s1 := each (List.range 16) (fun _ => sendCtl 0x66 k [k, 0, 0, 0, 0, 0, 0]) (modLane k (fun l => { l with txLeaving := false, txState := 1 }) s)
      let s2 := irq 9 (leaveUse k false s1)
      if (List.range 8).any fun j => (lane s2 j).txLeaving then s2
      else match s2.link.laneReq with
        | some q => settle (replyTo 0x22 q 0 [] { s2 with link := { s2.link with laneReq := none } })
        | none => s2)

/-- RX_DEEP_WAKE: the lane trains alone (R359). -/
def execRxDeepWake (k : Nat) (s : State) : Out :=
  guardObj (decide (k < 8)) (if (lane s k).retrain = 3 then
    irq 9 (modLane k (fun l => { l with rxState := 0, retrain := 1, aligns := 0, partnerAck := false }) s) else s)

/-- LASTING on a lane's source: DEGRADED, and out of TX_USE under RESTRIPE_EN unless it is the last lane (R362). -/
def degradeLane (k : Nat) (s : State) : State :=
  let s1 := irq 9 (modLane k (fun l => { l with degraded := true }) s)
  if restripeEn (rd s) && decide (2 ≤ s.link.txUse.length) then leaveUse k true s1 else s1

/-- FAULT_CLEAR on a lane (R362, R453). -/
def restoreLane (k : Nat) (s : State) : State := joinUse k (irq 9 (modLane k (fun l => { l with degraded := false }) s))

/-- TX lanes of a LANE_STATE request take a state; answered here, or by the last lane to fall asleep. -/
def txLaneState (code : Nat) (ks : List Nat) (q : Req) (s : State) : State :=
  if code = 1 then
    let go := ks.filter fun k => decide ((lane s k).txState = 0)
    if go = [] then replyTo 0x22 q 0 [] s
    else each go (fun k => modLane k fun l => { l with txLeaving := true }) { s with link := { s.link with laneReq := some q } }
  else if code = 2 then
    let s1 := each ks (fun k s => irq 9 (leaveUse k false (modLane k (fun l => { l with txState := 2, txLeaving := false }) s))) s
    replyTo 0x22 q 0 [] (if linkStopped s1 && linkOn s1 then enterDown s1 else s1)
  else
    let stopped := ks.any fun k => decide ((lane s k).txState = 2)
    let s1 := each ks (fun k s => if (lane s k).txState = 0 then s else irq 9 (joinUse k (modLane k (fun l => { l with txState := 0 }) s))) s
    if stopped then replyTo 0x22 q 12 [] (if linkOn s1 && !linkStopped s1 && !s1.pwr.lrefLost then enterDetect s1 else s1)
    else replyTo 0x22 q 0 [] s1

/-- RX lanes of a LANE_STATE request take a state. -/
def rxLaneState (code : Nat) (ks : List Nat) (q : Req) (s : State) : State :=
  if code = 1 ∨ code = 2 ∨ code = 3 then
    let s1 := each ks (fun k s => irq 9 (modLane k (fun l => { l with rxState := code, retrain := 0, lock := l.lock && code == 1 }) s)) s
    replyTo 0x22 q 0 [] (if linkStopped s1 && linkOn s1 then enterDown s1 else s1)
  else
    let was := fun n => ks.any fun k => decide ((lane s k).rxState = n)
    let s1 := each ks (fun k s =>
      if (lane s k).rxState = 0 then s
      else if (lane s k).rxState = 2 then modLane k (fun l => { l with retrain := 3 }) s
      else irq 9 (modLane k (fun l => { l with rxState := 0, lock := l.lock || l.rxState == 1 }) s)) s
    if was 3 then replyTo 0x22 q 12 [] (if linkOn s1 && !linkStopped s1 && !s1.pwr.lrefLost then enterDetect s1 else s1)
    else replyTo 0x22 q (if was 2 then 12 else 0) [] s1

/-- LANE_STATE on the stream link (R359): RANGE, then STATE, then DENIED (R314). -/
def linkLaneState (q : Req) (s : State) : State :=
  let w := qw q 0
  let rx := bit w 30
  let code := fld w 29 28
  let ks := bitsSet 8 0 (fld w 7 0)
  let lanes := if rx then rxLanes (rd s) else txLanes (rd s)
  if (ks.any fun k => decide (lanes ≤ k)) ∨ (¬ rx ∧ code = 3) then replyTo 0x22 q 8 [] s
  else if s.link.st ≠ .up ∧ code ≠ 0 ∧ code ≠ (if rx then 3 else 2) then replyTo 0x22 q 7 [] s
  else if ¬ domUp s (if rx then 16 else 15) then replyTo 0x22 q 10 [] s
  else if rx then rxLaneState code ks q s else txLaneState code ks q s

/-! ### Domains and the reference (R415, R420) -/

/-- D15 or D16 goes off: D15's frames in progress are abandoned, D16's partly received packets are lost. -/
def linkDomainOff (d : Nat) (s : State) : State :=
  linkPower (if d = 15 then noteFull { s with link := { s.link with ready := [] } } else s)

/-- Loss of LREFCLK: every lane stops, the link is down until the clock is back. -/
def linkClockLost (s : State) : State := if s.link.st = .off then s else irq 9 (enterDown s)

end Sys2Proof.Machine
end

