-- ==== Sys2Proof/Machine/Faults.lean ====
section
/-!
DEFINITION. Faults and continuous service (R449-R460): counting and classification, LASTING actions,
FAULT_CLEAR, the FLT bit, and the event log as it is read.
-/

namespace Sys2Proof.Machine

/-- Length of UNIT in 0.2 ns. -/
def unitTicks (u : Nat) : Nat := if u = 0 then 5000000 else if u = 1 then 500000000 else if u = 2 then 5000000000 else 300000000000

/-- Sub-interval of a source: W / 16 (R450). -/
def subTicks (r : Rd) (src : Nat) : Nat := max 1 (faultW r src * unitTicks (faultUnit r src) / 16)

/-- Present sub-interval of a source, from D0 power-up. -/
def subNow (s : State) (src : Nat) : Nat := s.sys.now / subTicks (rd s) src

/-- Events of the present sub-interval and the 15 before it. -/
def fltSum (s : State) (src inst : Nat) : Nat :=
  ((fltInst s src inst).counts.filter fun p => decide (subNow s src < p.1 + 16)).foldl (fun n p => n + p.2) 0

/-- An event is added to the present sub-interval's counter. -/
def fltCount (src inst : Nat) (s : State) : State :=
  let k := subNow s src
  modFlt src inst (fun x =>
    let kept := x.counts.filter fun p => decide (k < p.1 + 16)
    { x with counts := (k, (lookupNat kept k).getD 0 + 1) :: kept.filter fun p => p.1 != k }) s

/-- LASTING_ACTION (R449). -/
def lastingAction (src inst detail : Nat) (s : State) : State :=
  if src = 1 then retireEngine inst s
  else if src = 2 then degradeLane inst s
  else if src = 3 then modFront inst (fun f => { f with stuckMask := true }) s
  else if src = 4 then modAxis inst (fun a => { a with axFault := true }) s
  else if src = 5 then (if domUp s 17 && s.arch.mounted then archSuspend s else s)
  else if src = 6 then enterSafe 6 inst detail true s
  else s

/-- Classification of an event of an instance (R450, R456). -/
def classify (src inst detail : Nat) (s : State) : State :=
  let s1 := if fltSum s src inst = 0 then logWrite src 0 inst detail s else s
  let s2 := fltCount src inst s1
  if isLasting s src inst ∨ fltSum s2 src inst < faultN (rd s) src then s2
  else lastingAction src inst detail (logWrite src 1 inst detail (modFlt src inst (fun x => { x with lasting := true }) s2))

/-- FAULT_CLASSIFY: events that wait are classified in their order of arrival; with none waiting, one that arrives now is. No
event is classified in a command service pause (R451). -/
def execFaultClassify (src inst detail : Nat) (s : State) : Out :=
  if ¬ (1 ≤ src ∧ src ≤ 9) ∨ fltRange src ≤ inst then .fault .noSuchObject
  else .next (if ¬ s.sys.rdy then s
    else match s.flt.queue with
      | [] => classify src inst detail s
      | e :: r =>
        if e.1 = src ∧ e.2.1 = inst then classify src inst e.2.2 { s with flt := { s.flt with queue := r } }
        else if s.flt.queue.any fun e => e.1 == src && e.2.1 == inst then s
        else raiseEvent src inst detail s)

/-- A COMMIT that changes N or the window's length clears the source's counters (R452). -/
def fltSwap (r0 : Rd) (s : State) : State :=
  let r := rd s
  let changed := fun src => decide (faultN r0 src ≠ faultN r src) || decide (faultW r0 src * unitTicks (faultUnit r0 src) ≠ faultW r src * unitTicks (faultUnit r src))
  { s with flt := { s.flt with insts :=
    (s.flt.insts.map fun p => if changed (p.1 / 65536) then (p.1, { p.2 with counts := [] }) else p).filter fun p => p.2 != FltInst.reset } }

/-- LOG_BUDGET_REFILL. -/
def execLogBudgetRefill (s : State) : Out := .next { s with flt := { s.flt with budget := min 256 (s.flt.budget + 1) } }

/-! ### FAULT_CLEAR (R453) -/

/-- An instance is cleared: counters, LASTING, its action, and a CLEARED record. -/
def clearInst (src inst : Nat) (s : State) : State :=
  let s1 := modFlt src inst (fun _ => FltInst.reset) s
  let s2 := if ¬ isLasting s src inst then s1
    else if src = 1 then modEngine inst (fun e => { e with retired := false, reload := true }) s1
    else if src = 2 then restoreLane inst s1
    else if src = 3 then modFront inst (fun f => { f with stuckMask := false, maskHeld := true }) s1
    else if src = 4 then modAxis inst (fun a => { a with axFault := false }) s1
    else s1
  logWrite src 2 inst 0 s2

/-- Instances that a FAULT_CLEAR names: source and number. -/
def clearSet (src inst : Nat) : List (Nat × Nat) :=
  (if src = 0xFF then upto 1 9 else if 1 ≤ src ∧ src ≤ 9 then [src] else []).flatMap fun k =>
    if inst = 0xFFFF then (List.range (fltRange k)).map fun i => (k, i) else if inst < fltRange k then [(k, inst)] else []

/-- FAULT_CLEAR; RANGE where it names no instance. -/
def faultClear (q : Req) (s : State) : State :=
  let l := clearSet (fld (qw q 0) 31 24) (fld (qw q 0) 15 0)
  if l = [] then replyTo 0x71 q 8 [] s else replyTo 0x71 q 0 [] (each l (fun p => clearInst p.1 p.2) s)

/-! ### FLT (R454) and LASTING protective sources (R31, R449) -/

/-- Some source is LASTING. -/
def anyLasting (s : State) : Bool := s.flt.insts.any fun p => p.2.lasting

/-- Some protective source is LASTING: SAFE cannot be left. -/
def protLasting (s : State) : Bool :=
  s.flt.insts.any fun p => p.2.lasting && ([4, 6, 8].contains (p.1 / 65536) || (p.1 / 65536 == 7 && isSlave s))

/-- The FLT bit. -/
def fltBit (s : State) : Bool :=
  s.sys.devState == .safe || anyLasting s || s.pwr.refLost || s.pwr.lrefLost || s.pwr.aprefLost || s.pwr.hkxLost

/-! ### The log as read (R455, R457) -/

/-- A record's 32 bytes. -/
def logBytes (r : LogRec) : List Byte :=
  let b := leBytes 4 r.seq ++ leBytes 8 r.devtime ++ leBytes 1 r.source ++ leBytes 1 r.kind ++ leBytes 2 r.inst ++ leBytes 4 r.detail
    ++ leBytes 4 r.frame ++ leBytes 4 r.uptime
  b ++ leBytes 4 (crc32c b)

/-- FAULT_READ: `count` words from record `first` on, the newest being 0; END beyond the oldest. -/
def faultRead (q : Req) (s : State) : State :=
  let first := fld (qw q 0) 15 0
  let n := (qw q 1).toNat
  if n = 0 ∨ 1024 < n then replyTo 0x70 q 8 [] s
  else
    let ws := wordsOf (((s.flt.log.drop first).take 128).flatMap logBytes)
    replyTo 0x70 q (if ws.length < n then 9 else 0) ((List.range n).map fun i => ws.getD i 0) s

end Sys2Proof.Machine
end

