-- ==== Sys2Proof/Machine/Reorder.lean ====
section
/-!
DEFINITION. The reorder stage (R118-R120) and the decisions it makes as it assembles a shot group
(R146-R151, R161): coincidence, decorrelation, classes, histograms, selection, EIDX, GAP and the records.
-/

namespace Sys2Proof.Machine

/-- Oldest unreleased shot. -/
def oldestShot (s : State) : Option Shot := s.fire.shots.find? fun x => !x.released

/-- A group is ready (R119). -/
def groupReady (s : State) (x : Shot) : Bool :=
  x.ended && windowsIn s x && decide (x.done + x.shed = x.claimed) && x.coded.all (fun c => x.finMade.contains c) && x.finOut.isEmpty

/-- A group has reached its release horizon (R119, R129). -/
def atHorizon (s : State) (x : Shot) : Bool := x.ended && decide (8 * (x.endAt + (ns (1000 * x.horizon) : Nat)) + x.fine ≤ 8 * (s.sys.cyc : Int))

/-! ### Late work (R120) -/

def ofShot (sid : Nat) (t : Task) : Bool := taskSid t == some sid

/-- Windows of a group that are not done: tasks of return channels, and stacks whose window waits for its components. Start
windows are never late (R111). -/
def notDone (sid : Nat) (s : State) : List Task := (allTasks s).filter fun t => ofShot sid t && !isFin t
def stacksOf (sid : Nat) (s : State) : List Stack := s.stk.openStacks.filter fun k => k.claim == some sid

/-- Channels with a late window at a group's release: its shot's channels are marked (R148). -/
def markLate (sid : Nat) (s : State) : State :=
  each ((notDone sid s).map taskCh ++ (stacksOf sid s).map fun k => k.ch)
    (fun c s => modShot sid (fun x => { x with lossy := addNew x.lossy c }) s) s

/-- Windows and finish tasks of a released group that are not done: windows are late, finish tasks go. -/
def lateTasks (sid : Nat) (s : State) : State :=
  let late := notDone sid s
  let stks := stacksOf sid s
  let s1 := { s with
    eng := { s.eng with
      engines := s.eng.engines.filterMap fun p =>
        let e := { p.2 with queue := p.2.queue.filter fun t => !ofShot sid t }
        if e = Engine.reset then none else some (p.1, e)
      finWait := s.eng.finWait.filter fun p => p.1 != sid
      cands := s.eng.cands.filter fun p => p.1 != sid }
    stk := { s.stk with openStacks := s.stk.openStacks.filter fun k => k.claim != some sid } }
  each stks (fun k s => lateWindow k.ch (some sid) s) (each late (fun t s => lateWindow (taskCh t) (some sid) s) s1)

/-! ### Classes (R146-R149) -/

/-- Neighbours of a channel in a shot. -/
def neighbours (r : Rd) (x : Shot) (c : Nat) : List Nat :=
  x.group.filter fun n => n != c && decide (((n : Int) - c).natAbs ≤ coincSpan r)

/-- Neighbours with an echo at the same ToF. -/
def coincidences (r : Rd) (x : Shot) (es : List Echo) (e : Echo) : Nat :=
  ((neighbours r x e.ch).filter fun n => es.any fun o =>
    o.ch == n && !o.foreignCode && decide (((o.tof : Int) - e.tof).natAbs ≤ coincTol r)).length

/-- The decorrelation test fails (R147). -/
def decorFails (r : Rd) (coded : Bool) (hist : List (List Nat)) (coinc : Nat) (e : Echo) : Bool :=
  decorEn r && !coded && !e.stacked && coinc == 0 &&
    !((hist.take (decorShots r)).any fun l => l.any fun t => decide (((t : Int) - e.tof).natAbs ≤ decorTol r * 16))

/-- Class by the table of R149, PARTIAL aside: `later` says a later echo of the channel is solid. -/
def classOf (r : Rd) (em : Nat) (foreign : Bool) (coinc : Nat) (later : Bool) (e : Echo) : Nat :=
  if foreign then 3
  else if e.tof < nearTof r then 7
  else if e.sat then 4
  else if reflAmp r ≠ 0 ∧ reflAmp r * reflTof r ^ 2 ≤ e.amp * e.tof ^ 2 then 6
  else if e.stacked then 5
  else if diffDw r ≠ 0 ∧ (e.width = 1023 ∨ pulseW r em + diffDw r ≤ e.width) then 2
  else if 1 ≤ coincMin r ∧ coinc < coincMin r ∧ e.amp < isoAmp r ∧ e.tof < isoTof r then 2
  else if later then 1 else 0

/-- A class that makes an earlier echo PARTIAL. -/
def solid (c : Nat) : Bool := c != 3 && c != 7 && c != 2

/-- The echoes of one channel in ToF order, classed from the last to the first. -/
def classAll (r : Rd) (em : Nat) (foreign : Echo → Bool) (coinc : Echo → Nat) (l : List Echo) : List Echo :=
  (l.reverse.foldl (fun (a : List Echo × Bool) e =>
    let k := classOf r em (foreign e) (coinc e) a.2 e
    ({ e with cls := k, nearFlag := decide (e.tof < nearTof r) } :: a.1, a.2 || solid k)) ([], false)).1

/-- One channel's echoes of a shot, completed, ordered, classed and ranked. -/
def classChannel (s : State) (r : Rd) (x : Shot) (all : List Echo) (c : Nat) : List Echo :=
  let coded := isCoded s x
  let l := sortBy (fun e => (e.tof : Int)) (all.filter fun e => e.ch == c)
  let hist := (engCh s c).hist
  let foreign := fun (e : Echo) => e.foreignCode || decorFails r coded hist (coincidences r x all e) e
  (classAll r x.em foreign (coincidences r x all) l).zipIdx.map fun p => { p.1 with eidx := p.2 }

/-! ### Selection (R150, R151) -/

/-- Echo of greatest AMP, ties to the lesser ToF; the list is in ToF order. -/
def strongestEcho (l : List Echo) : Option Echo := (sortBy (fun e => -(e.amp : Int)) l).head?

/-- Reported members of the selection set, in ToF order. -/
def selected (mode : Nat) (p : List Echo) : List Echo :=
  let pick := fun (want : List (Option Echo)) => p.filter fun e => want.contains (some e)
  if mode = 0 then p.take 8
  else if mode = 1 then pick [p.head?]
  else if mode = 2 then pick [p.getLast?]
  else if mode = 3 then pick [strongestEcho p]
  else if mode = 4 then pick [p.head?, p.getLast?]
  else pick [strongestEcho p, p.getLast?]

/-- The echoes of a channel's shot that are reported, in ToF order. -/
def reported (r : Rd) (l : List Echo) : List Echo :=
  let p := selected (selectMode r) (l.filter fun e => e.cls != 3 && !(skipMask r).testBit e.cls)
  let f := if foreignRpt r then (l.filter fun e => e.cls == 3).take (8 - p.length) else []
  l.filter fun e => p.contains e || f.contains e

/-! ### Release -/

/-- A window not yet handed over may still be a released shot's: it is late then (R109, R120). -/
def mayClaim (s : State) (x : Shot) : Bool := !windowsIn s x || s.samp.wins.any fun w => !w.handed && claimOf s w == some x.sid

/-- Shots, delays, corrections, estimates and views that nothing needs any more go. -/
def purge (s : State) : State :=
  let inHand := s.eng.engines.filterMap fun p => p.2.cur.bind taskSid
  let keep := fun (x : Shot) => !x.released || mayClaim s x || inHand.contains x.sid || s.fronts.any fun f => blankedByShot f.2 x.sid
  let shots := s.fire.shots.filter keep
  let eps := s.cfg.epoch :: (shots.map fun x => x.epoch) ++ (allTasks s ++ s.eng.startQ).map taskEpoch ++ s.eng.finWait.map fun p => p.2.2
  let inUse := fun (p : Nat × Tab CalCh) => eps.contains p.1
  { s with
    fire := { s.fire with shots := shots }
    cal := { s.cal with
      oldChs := s.cal.oldChs.filter inUse
      delays := s.cal.delays.filter fun p => p.1 == s.fire.frame || shots.any fun x => x.frame == p.1 }
    eng := { s.eng with oldGreys := s.eng.oldGreys.filter fun p => eps.contains p.1 }
    cfg := { s.cfg with old := s.cfg.old.filter fun p => eps.contains p.1 } }

/-- One channel of a group: histograms, history, GAP and the echo records. -/
def releaseChannel (r : Rd) (x : Shot) (c : Nat) (l : List Echo) (s : State) : State :=
  let s1 := each (l.filter fun e => (histMask (rd s)).testBit e.cls) (fun e => countEcho c (e.dirOwn.getD (dirBin (rd s) x.angle)) e.tof) s
  let out := reported r l
  let gap := (engCh s1 c).gapPend && !out.isEmpty
  let recs := out.zipIdx.map fun p => { p.1 with gap := gap && p.2 == 0 }
  let s2 := modEngCh c (fun y => { y with gapPend := y.gapPend && out.isEmpty, hist := ((l.map fun e => e.tof) :: y.hist).take 4 }) s1
  let s3 := modHdr (fun h => { h with echoes := satAdd 32 h.echoes recs.length, foreign := satAdd 32 h.foreign (l.filter fun e => e.cls == 3).length }) s2
  each recs (fun e => putEcho (echoBytes (devIdx s) x e)) s3

/-- The group's echoes are completed and classed, its records leave, and then its late work is settled: the GAP of a late
window is pending for the channel's next group (R118-R120). -/
def releaseGroup (sid : Nat) (s : State) : State :=
  let s1 := markLate sid s
  let s2 := match shotOf s1 sid with
    | some x => if x.s.isNone then (if x.sin < 4 then startMissed sid s1 else s1) else s1
    | none => s1
  match shotOf s2 sid with
  | none => s2
  | some x =>
    let r := rdAt s2 x.epoch
    let lossy := fun (e : Echo) => if e.foreignCode && x.lossy.contains e.ch then { e with foreignCode := false, lowconf := true } else e
    let all := (s2.eng.echoes.filter fun e => e.sid == sid).map fun e =>
      let e1 := withTof s2 x (lossy e)
      { e1 with lowconf := e1.lowconf || x.lowconf }
    let raws := sortBy (fun w => (w.ch : Int)) (s2.eng.raws.filter fun w => w.sid == sid)
    let s3 := { s2 with eng := { s2.eng with echoes := s2.eng.echoes.filter (fun e => e.sid != sid), raws := s2.eng.raws.filter fun w => w.sid != sid } }
    let groups := ((List.range 256).filter fun c => all.any fun e => e.ch == c).map fun c => (c, classChannel s3 r x all c)
    let s4 := each groups (fun g => releaseChannel r x g.1 g.2) s3
    let s5 := each raws (fun w => putRaw w.bytes) (putItem 8 (min (2 ^ 24 - 1) s4.fire.cnt.echoes) s4)
    noteFull (purge (lateTasks sid (modShot sid (fun y => { y with released := true }) s5)))

/-- GROUP_RELEASE: the oldest group, when it is ready (R119). -/
def execGroupRelease (s : State) : Out :=
  .next (match oldestShot s with
    | some x => if groupReady s x then releaseGroup x.sid s else s
    | none => s)

/-- RELEASE_HORIZON: the oldest group at its horizon is released with what is done (R120). -/
def execReleaseHorizon (s : State) : Out :=
  .next (match oldestShot s with
    | some x => if atHorizon s x then releaseGroup x.sid s else s
    | none => s)

end Sys2Proof.Machine
end

