-- ==== Sys2Proof/Machine/Fire.lean ====
section
/-!
DEFINITION. The fire sequencer and the dwell guard (R87-R107): nominal times, the code step, edges,
listening windows, the speed estimate, and triggers of return channels.
-/

namespace Sys2Proof.Machine

/-! ### Nominal times (R89, R90) -/

/-- Angle of an axis in CORE; while D19 is off it stops updating (R420). -/
def coreAngle (s : State) (x : Nat) : Nat := if domUp s 19 then angleNow s x else if x = 0 then s.fire.angA else s.fire.angB

/-- Intervals of the position grid: it has the angles POS_START + k x POS_STEP of one turn, k = 0, 1, ... (log entry 119). -/
def posCells (r : Rd) : Nat := (2 ^ 24 + posStep r - 1) / max 1 (posStep r)

/-- Interval of the grid that an angle lies in; it begins at its grid angle. -/
def posCellOf (r : Rd) (a : Nat) : Nat := (a + 2 ^ 24 - posStart r) % 2 ^ 24 / max 1 (posStep r)

/-- The interval next to `k` on the shorter way to `j`: what one crossing reaches. -/
def posToward (n k j : Nat) : Nat := if 2 * ((j + n - k) % n) ≤ n then (k + 1) % n else (k + n - 1) % n

/-- The grid starts from where axis A stands. -/
def posAnew (s : State) : State := { s with fire := { s.fire with posCell := posCellOf (rd s) (coreAngle s 0) } }

/-- The PERIOD grid starts anew with every frame: SHOTS framing, or what a slave takes from its master. -/
def gridAnew (s : State) : Bool := if ownsFrames s then frameMode (rd s) == 1 else s.fire.reanchor

/-- First time at or after `lo` of the form `base + n * per`. -/
def gridFrom (base : Int) (per lo : Nat) : Nat := lo + ((base - lo) % (per : Int)).toNat

/-- Next nominal time of emitter `e`, ns. On a grid that runs free across frames an emitter enabled or given a new grid at a
boundary (`lastNom` none) starts at T_f; the others go on in the gap too, where R29 withholds them. -/
def nextNominal (s : State) (e : Nat) : Option Nat :=
  let r := rd s
  if ¬ emEn r e then none
  else if schedPos r then ((sortBy (fun p => (p.2 : Int)) (s.fire.sched.filter fun p => p.1 == e)).head?).map fun p => p.2
  else
    let per := max 1 (emPeriod r e)
    if gridAnew s then
      let b := s.fire.tf + emPhase r e
      some (match (emit s e).lastNom with
        | some l => if b ≤ l then b + ((l - b) / per + 1) * per else b
        | none => b)
    else
      let lo := match (emit s e).lastNom with | some l => l + 1 | none => s.fire.tf
      some (gridFrom ((s.fire.anchor.getD s.fire.tf : Nat) + (emPhase r e : Nat)) per lo)

/-- The earliest nominal time not yet stepped, ties to the lower emitter: emitter and ns. -/
def nextShot (s : State) : Option (Nat × Nat) :=
  (List.range 16).foldl (fun m e =>
    match nextNominal s e, m with
    | some t, some b => if t < b.2 then some (e, t) else m
    | some t, none => some (e, t)
    | none, _ => m) none

/-! ### Dwell guard (R99, R484) -/

def dwellBin (s : State) : Nat := coreAngle s 0 / 2 ^ (24 - s.fire.dwellBits)

/-- Length of a sub-interval in 0.2 ns: WINDOW / 16 in whole µs, rounded up. -/
def subLength (r : Rd) : Nat := 5000 * ((dwellWindow r + 15) / 16)

/-- Count of a bin over its 16 sub-intervals. -/
def dwellCount (s : State) (b : Nat) : Nat := (List.range 16).foldl (fun n j => n + tget 0 s.fire.dwell (16 * b + j)) 0

/-- A shot's weight. -/
def shotWeight (r : Rd) (e : Nat) : Nat := weight r e * emNsub r e

/-- Counts carried into bins of a new width. -/
def rebin (old new : Nat) (t : Tab Nat) : Tab Nat :=
  if old = new then t
  else if old < new then
    t.foldl (fun u p => (List.range (2 ^ (new - old))).foldl (fun u i => tset 0 u (16 * (p.1 / 16 * 2 ^ (new - old) + i) + p.1 % 16) p.2) u) []
  else t.foldl (fun u p => tmod 0 u (16 * (p.1 / 16 / 2 ^ (old - new)) + p.1 % 16) (· + p.2)) []

/-- CORE's crossing swaps BIN_BITS. -/
def dwellSwap (s : State) : State :=
  { s with fire := { s.fire with dwell := rebin s.fire.dwellBits (binBits (rd s)) s.fire.dwell, dwellBits := binBits (rd s) } }

/-! ### Code step (R91, R92) -/

def lfsrStep : Nat → Nat → Nat
  | 0, l => l
  | n + 1, l => lfsrStep n ((2 * l + (if l.testBit 30 != l.testBit 27 then 1 else 0)) % 2 ^ 31)

/-- The emitters whose grid new FIRE and FRAME words change start on it at T_f (R89). -/
def gridSwap (r0 : Rd) (s : State) : State :=
  let r := rd s
  let new := fun e => frameMode r0 != frameMode r || schedPos r0 != schedPos r ||
    emEn r0 e != emEn r e || emPeriod r0 e != emPeriod r e || emPhase r0 e != emPhase r e
  let s1 := each ((List.range 16).filter new) (fun e => modEmit e fun x => { x with lastNom := none }) s
  if posStart r0 = posStart r ∧ posStep r0 = posStep r then s1 else posAnew s1

/-- What becomes of the computed edges: 0 to be driven, 2 not, by the distance from the last driven falling edge. -/
def edgeFates (width : Nat) : Option Nat → List Nat → List Nat
  | _, [] => []
  | last, e :: r =>
    match last with
    | some f => if e < f + 10 then 2 :: edgeFates width last r else 0 :: edgeFates width (some (e + width)) r
    | none => 0 :: edgeFates width (some (e + width)) r

/-- The code of a nominal time: the LFSR after its step, d, k. -/
def codeOf (r : Rd) (s : State) (e : Nat) : Nat × Nat × Nat :=
  let l := lfsrStep 8 s.fire.lfsr
  (l, (if ppmEn r then (l % 256) &&& ppmMask r else 0), if emHop r e then l / 256 % 16 else emCode r e)

/-- The shot of a nominal time. -/
def makeShot (r : Rd) (s : State) (e nom d k : Nat) : Shot :=
  let f := ns (nom + d)
  let n := emNsub r e
  let edges := (f :: if 2 ≤ n then (f + gap1 r k) :: (if 3 ≤ n then [f + gap1 r k + gap2 r k] else []) else [])
  { sid := s.fire.nextSid, frame := s.fire.frame, n := s.fire.shotCnt, em := e, nominal := nom, d := d, k := k, nsub := n - 1,
    fcyc := f, fine := emFine r e, edges := edges, fate := edgeFates (emWidth r e) none edges, fall := f,
    listenEnd := f + ns (listen r), ended := false, endAt := 0, rampAt := 0, group := emGroup r e, angle := 0, angB := coreAngle s 1, dir := dirBin r (coreAngle s 0),
    sin := emSin r e, s := if emSin r e < 4 then none else some 0, o2 := none, o3 := none, lowconf := false, startWait := false,
    epoch := s.cfg.epoch, claimed := 0, done := 0, shed := 0, lossy := [], gates := [], trigs := [], zoneHits := [],
    satSeen := [], nbDone := [], finMade := [], evaluated := false, released := false, horizon := 0, coded := [], finOut := [],
    noOpen := [], sStamp := none }

/-- Grey parks of a shot: one on every GREY_EVERY-th shot of each channel, anchored at F - 40 ns (R139). -/
def greyParks (r : Rd) (x : Shot) (s : State) : State :=
  each x.group (fun c s =>
    let n := (grey s c).shotsGrey + 1
    let due := decide (greyEvery r ≤ n)
    let s1 := modGrey c (fun g => { g with shotsGrey := if due then 0 else n }) s
    if due then { s1 with samp := { s1.samp with calReqs := s1.samp.calReqs ++ [(c, slotBefore x 40, some x.sid)] } } else s1) s

/-- A frame header leaves; the times of a frame without a nominal time are free values. -/
def sendHeader (h : HdrPend) (s : State) : State :=
  let s1 := { s with fire := { s.fire with hdr := none } }
  match h.first with
  | some p => putHeader (headerBytes (devIdx s) p.1 p.2 h) s1
  | none =>
    let f := takeFree 64 s1
    let g := takeFree 24 f.2
    putHeader (headerBytes (devIdx s) f.1 g.1 h) g.2

/-- The frame's first nominal time gives its header T_FIRST and ANGLE_B; the header leaves with the first nominal time
from T_f on, when FORCED_SKIP is final (R29, R155). -/
def completeHeader (nom : Nat) (s : State) : State :=
  match s.fire.hdr with
  | none => s
  | some h =>
    let h1 := { h with first := some (h.first.getD (nom, coreAngle s 1)) }
    if nom < s.fire.tf then { s with fire := { s.fire with hdr := some h1 } } else sendHeader h1 s

/-- A nominal time withheld at a boundary counts in the header that the boundary opens; the first frame's counters stay 0. -/
def countSkip (s : State) : State :=
  match s.fire.hdr with
  | some h =>
    if s.fire.first then s
    else { s with fire := { s.fire with hdr := some { h with cnt := { h.cnt with forcedSkip := satAdd 16 h.cnt.forcedSkip 1 } } } }
  | none => modHdr (fun h => { h with forcedSkip := satAdd 16 h.forcedSkip 1 }) s

/-- A nominal time is counted, the LFSR steps, and a pending header is completed (R90, R91). -/
def countNominal (e nom l : Nat) (s : State) : State :=
  let s1 := putItem 2 s.fire.shotCnt (completeHeader nom s)
  modHdr (fun h => { h with shots := satAdd 32 h.shots 1 })
    (modEmit e (fun m => { m with lastNom := some nom })
      { s1 with fire := { s1.fire with
        lfsr := l
        shotCnt := wrapAdd 32 s1.fire.shotCnt 1
        sched := s1.fire.sched.erase (e, nom) } })

def countWithheld (e : Nat) (s : State) : State := modEmit e (fun m => { m with withheld := satAdd 8 m.withheld 1 }) s
def hdrWithheld (s : State) : State := modHdr (fun h => { h with withheld := satAdd 32 h.withheld 1 }) s

/-- A shot that is driven (`first`: its emitter's first of the frame): it is passed to samplers, zone logic, engines and predictor. -/
def launch (r : Rd) (first : Bool) (x : Shot) (s : State) : State :=
  let y := { x with gates := placeGates r s x }
  let s1 := { s with
    fire := { s.fire with shots := s.fire.shots ++ [y], nextSid := s.fire.nextSid + 1, subSkip := satAdd 16 s.fire.subSkip ((x.fate.filter (· == 2)).length) }
    samp := { s.samp with gateReqs := s.samp.gateReqs ++ y.gates.map fun g => (g.ch, g.idx, g.g, x.sid) }
    hk := { s.hk with notices := if domUp s 18 then s.hk.notices ++ [x.sid] else s.hk.notices } }
  let s2 := claimStacks r x.sid (greyParks r x s1)
  let cs := x.group ++ if x.sin < 4 then [256 + x.sin] else []
  each (List.range 9) (zeroShot x) (each cs (calShot x first) s2)

/-- Fire is inhibited. -/
def inhibited (s : State) : Bool := s.fire.faultInh || s.fire.velInh

/-- The dwell guard's test, and the shot or its withholding (R99, R100). -/
def dwellTest (r : Rd) (first : Bool) (x : Shot) (s : State) : State :=
  let b := dwellBin s
  let w := shotWeight r x.em
  if dwellEn r ∧ dwellBudget r < dwellCount s b + w then
    let s1 := hdrWithheld (countWithheld x.em s)
    if dwellSafe r then protective 6 0 x.em s1 else raiseOpen 6 0 s1
  else launch r first x { s with fire := { s.fire with dwell := tmod 0 s.fire.dwell (16 * b + s.fire.dwellSlot) (· + w) } }

/-- A nominal time is too close to the emitter's last one under POSITION (R89). -/
def tooClose (r : Rd) (s : State) (e nom : Nat) : Bool :=
  schedPos r && (match (emit s e).lastKept with | some l => decide (nom < l + emPeriod r e) | none => false)

/-- What the sequencer does with a counted nominal time; `forced` withholds it at a boundary (R29). -/
def stepShot (r : Rd) (forced first : Bool) (x : Shot) (s : State) : State :=
  if tooClose r s x.em x.nominal then modEmit x.em (fun m => { m with posSkip := satAdd 8 m.posSkip 1 }) s
  else
    let s1 := modEmit x.em (fun m => { m with lastKept := some x.nominal }) s
    if forced then countSkip (countWithheld x.em s1)
    else if s.fire.faultInh then countWithheld x.em s1
    else if s.fire.velInh then raiseOpen 6 0 (hdrWithheld (countWithheld x.em s1))
    else dwellTest r first x s1

/-! ### Ending a frame (R23, R24, R28, R29, R398) -/

/-- End of the last listening window still open among the shots of `p`, ns, not before `m`. -/
def windowsEnd (p : Shot → Bool) (m : Nat) (s : State) : Nat :=
  s.fire.shots.foldl (fun m x => if x.released || x.ended || !p x then m else max m (listenEndNs x)) m

/-- The nominal times before `ev` not yet stepped: the end of their windows, not before `m`, and the first nominal time
at or after `ev`. -/
def peekShots : Nat → Nat → Nat → State → Nat × Option Nat
  | 0, _, m, _ => (m, none)
  | n + 1, ev, m, s =>
    match nextShot s with
    | none => (m, none)
    | some (e, nom) =>
      if ev ≤ nom then (m, some nom)
      else
        let r := rd s
        let c := codeOf r s e
        let close := tooClose r s e nom
        let s1 := modEmit e (fun x => { x with lastNom := some nom, lastKept := if close then x.lastKept else some nom })
          { s with fire := { s.fire with lfsr := c.1, sched := s.fire.sched.erase (e, nom) } }
        peekShots n ev (if close then m else max m (nom + c.2.1 + listen r + b2n (emFine r e != 0))) s1

/-- A withheld shot past its code step whose nominal time is not before G: the closing frame counts it no longer, and the
frame that the boundary opens counts it first (R29). -/
def carryShot (x : Shot) (s : State) : State :=
  modHdr (fun h => { h with shots := h.shots - 1 })
    { s with fire := { s.fire with shotCnt := s.fire.shotCnt - 1, carry := s.fire.carry ++ [(x.nominal, x.angB)] } }

/-- Shots past their code step that a forced boundary at `g` withholds. -/
def withholdFrom (ev g : Nat) (s : State) : State :=
  each (s.fire.shots.filter fun x => decide (ev ≤ x.nominal) && !x.fate.contains 1)
    (fun x s =>
      let s1 := countSkip (countWithheld x.em (dropShot x s))
      if x.nominal < g then s1 else carryShot x s1) s

/-- The boundary is deferred: the frame goes on (R28). -/
def deferFrame (s : State) : State :=
  modHdr (fun h => { h with defer := satAdd 8 h.defer 1 })
    { s with
      fire := { s.fire with ending := none, defers := s.fire.defers + 1 }
      sys := { s.sys with deferCnt := satAdd 16 s.sys.deferCnt 1 } }

/-- The least FRAME.GAP, ns: a nominal time closer than this to G defers whatever COMMIT may still come (R24). -/
def leastGap : Nat := 2000

/-- The next nominal time comes less than `gap` ns after a gap that opens at `g`. Under SHOTS framing the PERIOD grid is
anchored at T_f and never does. -/
def tooSoon (g gap : Nat) (next : Option Nat) (s : State) : Bool :=
  match next with
  | some n => decide (n < g + gap) && !(gridAnew s && !schedPos (rd s))
  | none => false

/-- An ending event at `ev` ns: the boundary is deferred, or the frame ends, forced after DEFER_MAX deferrals. `all`: every
shot past its code step belongs to the ending frame (SHOTS). The gap's length is that of the set which applies at G (R24), so
only what the least GAP decides is decided here, the rest when the gap would open; a cascade's master decides all here, sends
FRAME_END, and later sets wait (R401). -/
def frameEvent (ev : Nat) (all limit : Bool) (s : State) : State :=
  let r := rd s
  let p := peekShots 512 ev (windowsEnd (fun x => all || decide (x.nominal < ev)) ev s) s
  let g := if cascMaster s then max p.1 (devNs s + leadNs r) else p.1
  let gap := frameGap (rdNext s)
  let soon := tooSoon g (if cascMaster s then gap else leastGap) p.2 s || (!all && s.fire.shots.any fun x => decide (ev ≤ x.nominal))
  if soon ∧ s.fire.defers < deferMax r then deferFrame s
  else
    let forced := decide (deferMax r ≤ s.fire.defers)
    let s1 := { s with fire := { s.fire with ending := some ⟨ev, g, forced, limit⟩ } }
    let s2 := if forced ∧ ¬ all then withholdFrom ev g s1 else s1
    if cascMaster s then
      let e := SchedEvent.frameEnd g (wrapAdd 32 s.fire.frame 1) (g + gap)
      ringSend (.sched e) (ringSend (.sched e) { s2 with casc := { s2.casc with events := s2.casc.events ++ [(e, s.sys.cyc, false)] } })
    else s2

/-- An ending event may end the frame: frames run, none is ending, no gap is open and T_f has passed (R23). -/
def canEnd (s : State) : Bool :=
  running s && ownsFrames s && !s.fire.gap && !s.cfg.token && s.fire.ending.isNone && decide (s.fire.tf ≤ devNs s)

/-- The frame's SHOTS are reached at the nominal time `nom`: SHOTS framing ends it (R23). After a deferral every further
nominal time is an ending event (log entry 118). -/
def shotsReached (nom : Nat) (s : State) : State :=
  if ownsFrames s && frameMode (rd s) == 1 && decide (frameShots (rd s) ≤ s.fire.shotCnt) && s.fire.ending.isNone then
    frameEvent nom true false s
  else s

/-- G of a FRAME_END that waits on a cascade slave, ns (R398). -/
def frameEndAt (s : State) : Option Nat :=
  s.casc.events.findSome? fun p => match p with | (.frameEnd g _ _, _, false) => some g | _ => none

/-- A nominal time may be stepped now, and whether a boundary withholds it: none while the frame's end or a token
under way keeps it waiting (R24, R26, R29, R400). -/
def stepForced (s : State) (nom : Nat) : Option Bool :=
  if ¬ running s ∨ ¬ devRuns s ∨ (s.fire.gap ∧ (s.cfg.token ∨ ¬ s.fire.opens)) then none
  else match s.fire.ending with
    | some e =>
      if nom < e.ev then some (decide (nom < s.fire.tf))
      else if e.forced && decide (nom < e.g) then some true else none
    | none =>
      match frameEndAt s with
      | some g => if g ≤ nom then none else some (decide (nom < s.fire.tf))
      | none => some (decide (nom < s.fire.tf))

/-- CODE_STEP: the earliest nominal time not yet stepped (R90-R92). -/
def execCodeStep (s : State) : Out :=
  .next (match nextShot s with
    | none => s
    | some (e, nom) =>
      match stepForced s nom with
      | none => s
      | some forced =>
        let s0 := advTo (ns (nom - 200)) s
        let r := rd s0
        let c := codeOf r s0 e
        let x := makeShot r s0 e nom c.2.1 c.2.2
        let first := match (emit s0 e).lastNom with | some l => decide (l < s.fire.tf) | none => true
        shotsReached nom (stepShot r forced first x (countNominal e nom c.1 s0)))

/-! ### Edges and windows -/

/-- Samples that the first driven edge of a shot starts: the angle at F, amber, the zone histories (R48, R53, R260). -/
def firstEdge (x : Shot) (s : State) : State :=
  let s1 := modShot x.sid (fun y => { y with angle := coreAngle s 0 }) (modEmit x.em (fun m => { m with fired := wrapAdd 32 m.fired 1 }) s)
  let s2 := each (x.group.filter fun c => domUp s (inputDom c))
    (fun c => modFront c fun f => { f with blankedBy := f.blankedBy ++ [(x.sid, amberEndOf (rd s) x c)] }) s1
  zoneShot x s2

/-- FIRE_EDGE: edge `j` (1-3) of a shot is driven in RUN, unless it is not to be (R87, R88, R92); its pulse falls WIDTH later. -/
def execFireEdge (sid j : Nat) (s : State) : Out :=
  .next (match shotOf s sid with
    | none => s
    | some x =>
      if j = 0 ∨ x.fate.getD (j - 1) 2 ≠ 0 ∨ inhibited s ∨ ¬ devRuns s ∨ opState s ≠ .run then s
      else
        let t := x.edges.getD (j - 1) 0
        let s1 := advTo t s
        let s2 := if x.fate.contains 1 then s1 else firstEdge x s1
        let w := emWidth (rdAt s x.epoch) x.em
        modEmit x.em (fun m => { m with high := true, fallAt := s1.sys.now + w })
          (modShot sid (fun y => { y with fate := y.fate.set (j - 1) 1, fall := t + w }) s2))

/-- FIRE_PULSE_END: the pulse of emitter `e` has lasted its WIDTH (R87, R88). -/
def execFirePulseEnd (e : Nat) (s : State) : Out :=
  guardObj (decide (e < 16))
    (if (emit s e).high then modEmit e (fun m => { m with high := false }) (advNow (emit s e).fallAt s) else s)

/-- An assertion of the saturation detector overlaps one of a shot's start acceptance intervals (R46). -/
def startSat (x : Shot) (f : Front) (r : Rd) : Bool :=
  (List.range x.edges.length).any fun j => x.fate.getD j 2 != 2 &&
    satIn f (x.edges.getD j 0 - ns 2) (x.edges.getD j 0 + ns (sinWin r))

/-- START_ACCEPT_CLOSE: interval `j` (1-3) of a shot closes. Without a trigger in edge 1's interval the shot takes NOM; at the
last the start input's saturation is counted, once (R46, R62, R94). -/
def execStartAcceptClose (sid j : Nat) (s : State) : Out :=
  .next (match shotOf s sid with
    | none => s
    | some x =>
      if 4 ≤ x.sin ∨ j = 0 ∨ x.edges.length < j then s
      else
        let c := 256 + x.sin
        let s0 := if x.fate.getD (j - 1) 2 = 2 then s else advTo (x.edges.getD (j - 1) 0 + ns (sinWin (rd s)) + b2n (x.fine != 0)) s
        let s1 := if j = 1 ∧ x.sStamp = none ∧ x.s = none then startMissed sid s0 else s0
        if j = x.edges.length ∧ ¬ x.satSeen.contains c ∧ startSat x (front s c) (rd s) then
          modShot sid (fun y => { y with satSeen := y.satSeen ++ [c] }) (modFront c (fun f => { f with satCnt := satAdd 14 f.satCnt 1 }) s1)
        else s1)

/-- LISTEN_WINDOW_END (R39, R46, R129). -/
def execListenWindowEnd (sid : Nat) (s : State) : Out :=
  .next (match shotOf s sid with
    | none => s
    | some x =>
      if x.ended then s
      else countSat x x.group (modShot sid (fun y => { y with ended := true, endAt := y.listenEnd, rampAt := convCycle y.listenEnd + 1, horizon := horizon (rd s) }) (advTo (x.listenEnd + b2n (x.fine != 0)) s)))

/-- TRIGGER: a crossing on return channel `c` at `t` (R45, R50, R52, R66, R169, R187). -/
def execTrigger (c t : Nat) (s : State) : Out :=
  guardObj (decide (c < 256)) <|
    if ¬ crosses s c t then crossed c t false s
    else
      let s1 := stuckHeard c (widthHit c t (crossed c t true (advTo t s)))
      let s2 := trigLimitHits c t (zoneMatch c t (noteTrig c t s1))
      if listening s2 c t then neighbourGates c t (addReq ⟨c, .trigger, t, t + 4, 0, none⟩ s2) else s2

/-! ### Speed (R100, R485) and loss of the reference (R20) -/

/-- Distance of two angles on the turn. -/
def turnDist (a b : Nat) : Nat := let d := (a + 2 ^ 24 - b) % 2 ^ 24; min d (2 ^ 24 - d)

/-- VELOCITY_ESTIMATE: once every µs; a breach, or the clearing of VEL_INH. -/
def execVelocityEstimate (s0 : State) : Out :=
  .next (if ¬ domUp s0 9 then s0
    else
      let s := advNow s0.fire.speedAt s0
      let a := coreAngle s 0
      let v := if domUp s 19 then turnDist a s.fire.speedLast else 0
      let r := rd s
      let s1 := { s with fire := { s.fire with speedLast := a, speedAt := s.sys.now + 5000 } }
      if opState s ≠ .run then { s1 with fire := { s1.fire with belowFor := 0, aboveFor := 0 } }
      else if vmin r ≠ 0 ∧ v < vmin r then
        let n := s.fire.belowFor + 1
        let s2 := { s1 with fire := { s1.fire with belowFor := n, aboveFor := 0 } }
        if s.fire.velInh ∨ n < vtime r then s2
        else if dwellSafe r then protective 6 0 v s2
        else raiseOpen 6 0 (cancelEdges true { s2 with fire := { s2.fire with velInh := true } })
      else
        let n := s.fire.aboveFor + 1
        { s1 with fire := { s1.fire with belowFor := 0, aboveFor := n, velInh := s.fire.velInh && decide (n < dwellResume r) } })

/-- DWELL_SUBINTERVAL_ROLL: the running sub-interval ends, and the oldest one's counts leave the window. The next one takes
the length in force (R99, R484). -/
def execDwellSubintervalRoll (s : State) : Out :=
  .next (if ¬ domUp s 9 then s
    else
      let j := (s.fire.dwellSlot + 1) % 16
      let t := advNow s.fire.dwellEnd s
      { t with fire := { s.fire with
        dwellSlot := j
        dwellEnd := s.fire.dwellEnd + subLength (rd s)
        dwell := s.fire.dwell.filter fun p => p.1 % 16 != j } })

end Sys2Proof.Machine
end

