-- ==== Sys2Proof/Machine/HkCmd.lean ====
section
/-!
DEFINITION. The commands of the housekeeping converter (R204-R241): passes, entries, conversions, the result
buffer, pauses, injected requests, self-calibration and background recalibration.
-/

namespace Sys2Proof.Machine

/-- A change to the converter's record when D18 is up; a command to a converter that is off does nothing. -/
def whenHk (ok : Bool) (f : State → State) (s : State) : Out := .next (if domUp s 18 && ok then f s else s)

/-! ### Passes (R215) -/

/-- HK_PASS_TRIGGER: a pass starts under FREE, or under PWM where the named axis drives no PWM. -/
def execHkPassTrigger (s : State) : Out :=
  whenHk (s.hk.phase == .waitPass && seqEn (rd s) && !s.hk.selfWait) (fun s =>
    if passTrig (rd s) = 0 then startPass s
    else if passTrig (rd s) = 2 ∧ ¬ hkPwmRuns s then startPass { s with hk := { s.hk with pwmAbsent := true } }
    else s) s

/-- HK_TIMER_TICK: a pass starts; a tick that finds a pass running is missed. -/
def execHkTimerTick (s : State) : Out :=
  whenHk (seqEn (rd s) && passTrig (rd s) == 1) (fun s =>
    if s.hk.passRun then { s with hk := { s.hk with timerMiss := satAdd 8 s.hk.timerMiss 1 } }
    else if s.hk.phase = .waitPass ∧ ¬ s.hk.selfWait then startPass s
    else { s with hk := { s.hk with passRun := true, resumeAt := some (0, 0) } }) s

/-- HK_PWM_EDGE: the delayed edge of the named axis satisfies a pass trigger or a PWM wait. -/
def execHkPwmEdge (x : Nat) (falling : Bool) (s : State) : Out :=
  if 2 ≤ x then .fault .noSuchObject
  else whenHk (x == pwmAxis (hkRd s) && falling == pwmFalling (hkRd s)) (fun s0 =>
    let s := { s0 with hk := { s0.hk with pwmAbsent := false } }
    if s.hk.phase = .pwmWait then beginConv s
    else if s.hk.phase = .waitPass ∧ passTrig (rd s) = 2 ∧ seqEn (rd s) ∧ ¬ s.hk.selfWait then startPass s
    else s) s

/-! ### Entries -/

/-- The sources take the entry's set (R235); a difference is an excitation change (R216). -/
def applySources (e : EntW) (s : State) : State :=
  let vs := setSources s (eExc e)
  let t := (List.range 4).foldl (fun t n =>
    let v := vs.getD n 0
    tset (0, 0) t n (if v = 0 then (0, 0) else (srcLevel v + 8 * b2n (srcMode v), srcPin v))) []
  if t = s.hk.src then { s with hk := { s.hk with excSet := eExc e } }
  else { s with hk := { s.hk with src := t, excSet := eExc e, change := true, excNew := true } }

/-- The burnout pulse is given at this switch (R240). -/
def burnoutDue (s : State) (e : EntW) : Bool :=
  decide (ePos e < 24) && (boMask (rd s)).testBit (ePos e) &&
    (setSources s (eExc e)).all fun v => v == 0 || srcPin v != ePos e

/-- HK_ENTRY_SWITCH (R215, R223, R235, R240). -/
def execHkEntrySwitch (v0 : Int) (s : State) : Out :=
  whenHk (s.hk.phase == .toSwitch) (fun s =>
    let s := if s.hk.injCur.isNone ∧ seqLast (rd s) < s.hk.entry then { s with hk := { s.hk with entry := 0, rep := 0 } } else s
    let e : EntW := match s.hk.injCur with | some i => (i.w0, i.w1, i.w2) | none => tableEnt s s.hk.entry
    let g := match s.hk.injCur with
      | some _ => clampGain e (eGain e)
      | none => if eAr e then (hkEnt s s.hk.entry).gain else eGain e
    let s1 := { s with hk := { s.hk with curEnt := e, curGain := g, declared := false, declOn := [], gainWait := false, tdac := none } }
    if gainBusy s1 g then nextEntry (staleTimes (repeatsOf s1 - repOf s1) s1)
    else
      let s2 := applySources e { s1 with hk := { s1.hk with tdac := if eTdac e then some (ePos e) else none } }
      if burnoutDue s2 e then { s2 with hk := { s2.hk with phase := .burnout, boV0 := some v0 } }
      else { s2 with hk := { s2.hk with phase := .delay } }) s

/-- BURNOUT_PULSE_END: an open input ends the entry; else its delay starts (R240). Voltages in µV. -/
def execBurnoutPulseEnd (v1 : Int) (s : State) : Out :=
  whenHk (s.hk.phase == .burnout) (fun s =>
    let v0 := s.hk.boV0.getD 0
    let s1 := { s with hk := { s.hk with boV0 := none } }
    if (boMv (hkRd s) : Int) * 500 < v1 - v0 then
      nextEntry (hkStale true false false { s1 with hk := { s1.hk with boOpen := satAdd 16 s1.hk.boOpen 1 } })
    else { s1 with hk := { s1.hk with phase := .delay } }) s

/-- HK_ENTRY_DELAY_END: the reference wait or the conversion begins. -/
def execHkEntryDelayEnd (s : State) : Out := whenHk (s.hk.phase == .delay) refOrPwm s

/-- HK_REF_WAIT_TIMEOUT: the last value with STALE; on to the next entry (R209). -/
def execHkRefWaitTimeout (s : State) : Out :=
  whenHk (s.hk.phase == .refWait) (fun s =>
    nextEntry (hkStale false false false { s with hk := { s.hk with refFail := satAdd 8 s.hk.refFail 1 } })) s

/-- REFRDY_CHANGE: references 0 internal, 1 external, 2 supply (R209). -/
def execRefrdyChange (r : Nat) (set : Bool) (s : State) : Out :=
  if 3 ≤ r then .fault .noSuchObject
  else whenHk true (fun s =>
    let s1 := { s with hk := { s.hk with
      refInt := if r = 0 then set else s.hk.refInt
      refExt := if r = 1 then set else s.hk.refExt
      refSup := if r = 2 then set else s.hk.refSup } }
    if s1.hk.phase = .refWait ∧ refReady s1 (eRef s1.hk.curEnt) then pwmOrConv s1 else s1) s

/-! ### Conversion end (R204, R207-R211) -/

/-- The present gain after a result (R204): gain and count. -/
def autoGain (r : Rd) (e : EntW) (ovr : Bool) (c : Int) (g up : Nat) : Nat × Nat :=
  let lo := if eArMax e < eArMin e then eArMax e else eArMin e
  if ovr then (lo, 0)
  else if 9 * 2 ^ 23 < 10 * c.natAbs then (max (g - 1) lo, 0)
  else if 10 * c.natAbs < 4 * 2 ^ 23 then
    (if arUpCnt r ≤ up + 1 then (min (g + 1) (eArMax e), 0) else (g, up + 1))
  else (g, 0)

/-- A good result of a die temperature channel goes to CORE and makes the test of R179; a supervisor read is done. -/
def tempForward (e : EntW) (t : Int) (s : State) : State :=
  let p := ePos e
  if 32 ≤ p ∧ p ≤ 40 then
    let s1 := tempHoldNow (putItem (0x10 + (p - 32)) (t / 256) (modCalGrp (p - 32) (fun x => { x with temp := some t, fresh := true }) s))
    let s2 := (match s1.hk.injCur with
      | some i => if i.tag.isNone then modCalGrp i.grp (fun x => { x with readRes := 1 }) s1 else s1
      | none => s1)
    tempTest (p - 32) s2
  else s

/-- The value field of a result (R210). -/
def valueField (e : EntW) (c : Int) (eng : Int) : Nat :=
  if eFmt e = 0 then codeField (eSingle e) c
  else if eFmt e = 1 then (usgn 24 (if eSingle e then c + 0x800000 else c)) * 256
  else usgn 32 eng

/-- A completed conversion's result, with its flags; whether the entry's gain changed. -/
def goodResult (c : Int) (beyondFs : Bool) (eng : Int × Bool) (s : State) : State × Bool :=
  let e := s.hk.curEnt
  let settling := decide (0 < s.hk.settle)
  let exc := decide (0 < s.hk.excLeft)
  let blanked := decide (eInteg e < 4 * s.hk.paused)
  let ovr := beyondFs || (eFmt e == 2 && eng.2)
  let v := valueField e c eng.1
  let s1 := hkOut (resultBits (hkCode s) s.hk.curGain false settling false false ovr blanked exc s.hk.passes v)
    { s with hk := { s.hk with settle := s.hk.settle - 1, excLeft := s.hk.excLeft - 1, excNew := false
                               settleCnt := if settling then satAdd 16 s.hk.settleCnt 1 else s.hk.settleCnt
                               blankedCnt := if blanked then satAdd 16 s.hk.blankedCnt 1 else s.hk.blankedCnt
                               vhk := if ePos e = 52 then some eng.1 else s.hk.vhk } }
  let s2 := tempForward e eng.1 s1
  if s2.hk.injCur.isSome then (s2, false)
  else
    let n := s2.hk.entry
    let same := s2.hk.held.isNone || arFields e.1 == arFields (tableEnt s2 n).1
    let a := if eAr e then autoGain (hkRd s2) e ovr c s2.hk.curGain (hkEnt s2 n).up else (s2.hk.curGain, 0)
    let s3 := modHkEnt n (fun h => { h with gain := if eAr e && same then a.1 else h.gain, up := if same then a.2 else h.up, last := v, has := true, bad := false, eng := eng.1 }) s2
    (biasResult n (some eng.1) { s3 with hk := { s3.hk with curGain := a.1 } }, a.1 != s2.hk.curGain)

/-- HK_CONVERSION_END: `raw` in 1/256 code and the modulator's overrange. -/
def execHkConversionEnd (raw : Int) (ovr : Bool) (s : State) : Out :=
  whenHk (s.hk.phase == .converting) (fun s0 =>
    let f := takeFree 16 s0
    let s := f.2
    let e := s.hk.curEnt
    let c := corrected (hkFactors s s.hk.curGain) raw ovr
    match engValue s e s.hk.curGain c.1 f.1 with
    | none => fillReads (nextRepeat false (hkStale false false false s))
    | some v => let p := goodResult c.1 c.2 v s; fillReads (nextRepeat p.2 p.1)) s

/-- HKBUF_WRITE: the oldest formed result enters the buffer; a full buffer loses its oldest entry (R226, R227). -/
def execHkbufWrite (s : State) : Out :=
  match s.hk.outQ with
  | [] => .next s
  | v :: q =>
    let full := decide (4096 ≤ s.hk.unread)
    let h := { s.hk with
      outQ := q, buf := tset 0 s.hk.buf s.hk.wr v, wr := (s.hk.wr + 1) % 4096
      rd := if full then (s.hk.rd + 1) % 4096 else s.hk.rd
      unread := if full then 4096 else s.hk.unread + 1
      bufOvr := s.hk.bufOvr || full }
    let s1 := if full then irq 7 { s with hk := h } else { s with hk := h }
    .next (if 0 < s.sys.hkIrqLvl ∧ s.sys.hkIrqLvl ≤ h.unread then irq 6 s1 else s1)

/-! ### Pauses (R212-R214) -/

/-- HK_PAUSE_START: the oldest notice under way arrives and stops the modulator; it joins a pause in progress. -/
def execHkPauseStart (s : State) : Out :=
  whenHk (!s.hk.notices.isEmpty) (fun s =>
    let s1 := { s with hk := { s.hk with notices := s.hk.notices.drop 1 } }
    if amberEn (hkRd s) then { s1 with hk := { s1.hk with pauseAmber := true, amb := s.hk.amb ++ s.hk.notices.take 1 } } else s1) s

/-- A pause that is over counts its modulator cycles against the conversion. -/
def pauseOver (cycles : Nat) (s : State) : State :=
  if hkPaused s then s else { s with hk := { s.hk with paused := s.hk.paused + cycles } }

/-- HK_PAUSE_END: the modulator resumes AMB_POST after E_last of the last of the pause's shots; notices still under way make
pauses of their own. -/
def execHkPauseEnd (cycles : Nat) (s : State) : Out :=
  whenHk s.hk.pauseAmber (fun s => pauseOver cycles { s with hk := { s.hk with pauseAmber := false, amb := [] } }) s

/-- HK_BLANK_EDGE: the pin's level; BLANK_EN lets it pause (R213). The pin is read while D18 is off too. -/
def execHkBlankEdge (level : Bool) (cycles : Nat) (s : State) : Out :=
  let s1 := { s with hk := { s.hk with pinLevel := level } }
  if domUp s 18 && blankEn (hkRd s) then
    let now := level != blankPol (hkRd s)
    let s2 := { s1 with hk := { s1.hk with pausePin := now } }
    .next (if s.hk.pausePin && !now then pauseOver cycles s2 else s2)
  else .next s1

/-- HK_BLANK_MAX_ABORT: the conversion is abandoned with STALE and BLANKED, and a change follows (R214). -/
def execHkBlankMaxAbort (s : State) : Out :=
  whenHk (s.hk.phase == .converting && hkPaused s) (fun s =>
    let s1 := hkStale false false true { s with hk := { s.hk with blankAbort := satAdd 16 s.hk.blankAbort 1, change := true } }
    fillReads (nextRepeat false s1)) s

/-! ### Injected work and calibration of the converter (R217-R224) -/

/-- HK_INJECT_HEAD: the sequencer's work is aborted for the head of the queue (R219). -/
def execHkInjectHead (s : State) : Out :=
  whenHk (s.hk.injCur.isNone && s.hk.phase != .selfcal && !(s.hk.selfWait && s.hk.selfBefore == 0)) (fun s =>
    match s.hk.inj with
    | [] => s
    | i :: r =>
      let s1 := interruptSeq s
      let s2 := if s.hk.phase = .converting then { s1 with hk := { s1.hk with abortCnt := satAdd 16 s1.hk.abortCnt 1 } } else s1
      { s2 with hk := { s2.hk with injCur := some i, inj := r, phase := .toSwitch, selfBefore := s.hk.selfBefore - 1 } }) s

/-- SELFCAL_START: the requests queued before it are served; the sequencer stops and every source goes off (R220, R235). -/
def execSelfcalStart (s : State) : Out :=
  whenHk (s.hk.selfWait && s.hk.selfBefore == 0 && s.hk.injCur.isNone) (fun s =>
    let s1 := sourcesOff (interruptSeq s)
    { s1 with hk := { s1.hk with phase := .selfcal, selfWait := false } }) s

/-- SELFCAL_END: one set for each gain, UNCAL and SELFCAL_BUSY clear; waiting requests and the sequencer follow. -/
def execSelfcalEnd (factors : List (Int × Nat)) (temp : Int) (s : State) : Out :=
  whenHk (s.hk.phase == .selfcal) (fun s =>
    let sets := (List.range 8).foldl (fun t g =>
      let f := factors.getD g (0, 0x400000)
      tset [] t g [HkSet.mk temp f.1 f.2]) []
    fillReads (irq 5 (afterInject { s with hk := { s.hk with
      sets := sets, tempHk := some temp, uncal := false, selfBusy := false, change := true, bgBusy := false, bgStage := 0 } }))) s

/-- Gains whose newest set is more than 5.0 °C from TEMP_HK (R223). -/
def dueGains (s : State) : List Nat :=
  (List.range 8).filter fun g =>
    match hkSets s g, s.hk.tempHk with
    | x :: _, some t => decide (40 < (t - x.t).natAbs)
    | _, _ => false

/-- Take up the lowest due gain. -/
def bgNext (s : State) : State :=
  if s.hk.bgBusy ∨ ¬ bgCalEn (rd s) then s
  else match dueGains s with
    | [] => s
    | g :: _ => { s with hk := { s.hk with bgBusy := true, bgGain := g, bgStage := 0 } }

/-- HK_BG_TEMP_MEASURE: TEMP_HK once per second, under BG_CAL_EN or for a thermocouple (R223, R244). -/
def execHkBgTempMeasure (temp : Int) (s : State) : Out :=
  whenHk (s.hk.phase != .selfcal &&
      (bgCalEn (rd s) || (List.range (seqLast (rd s) + 1)).any fun n => curveIsTc (eCurve (tableEnt s n)))) (fun s =>
    bgNext { s with hk := { s.hk with tempHk := some temp } }) s

/-- HK_BG_CAL_SLOT_END: the offset slot, then the full-scale slot and the new set (R223, R224). -/
def execHkBgCalSlotEnd (val : Int) (s : State) : Out :=
  whenHk s.hk.bgBusy (fun s =>
    if s.hk.bgStage = 0 then { s with hk := { s.hk with bgStage := 1, bgOffVal := val, change := true } }
    else
      let g := s.hk.bgGain
      let n : HkSet := ⟨s.hk.tempHk.getD 0, s.hk.bgOffVal, val.toNat⟩
      bgNext { s with hk := { s.hk with
        sets := tset [] s.hk.sets g (placeHkSet n (hkSets s g)), bgBusy := false, bgStage := 0, change := true } }) s

/-! ### Excitation monitor (R237-R239) -/

/-- Set OPEN or SHORT in the last result that has not left for the buffer. -/
def flagLast (short : Bool) (s : State) : State :=
  match s.hk.outQ.reverse with
  | [] => s
  | v :: r => { s with hk := { s.hk with outQ := (r.reverse ++ [v ||| 2 ^ (if short then 49 else 50)]) } }

/-- The monitor of a source can declare the condition: the source is on, or was on when another declaration ended the entry in
hand; a current source's SHORT needs the set's SHORT_LIM (R237, R238). -/
def monitorOn (s : State) (src : Nat) (short : Bool) : Bool :=
  let v := tget (0, 0) s.hk.src src
  (decide (v ≠ (0, 0)) || (s.hk.declared && s.hk.declOn.contains src)) &&
    (!short || decide (8 ≤ v.1) || s.hk.excSet == 0 || decide (shortLim (hkRd s) s.hk.excSet ≠ 0))

/-- EXC_MONITOR_DECLARE: OPEN or SHORT of a source that is on. -/
def execExcMonitorDeclare (src : Nat) (short : Bool) (s : State) : Out :=
  if 4 ≤ src then .fault .noSuchObject
  else whenHk (monitorOn s src short) (fun s =>
    let s1 := { s with hk := { s.hk with
      openCnt := if short then s.hk.openCnt else satAdd 16 s.hk.openCnt 1
      shortCnt := if short then satAdd 16 s.hk.shortCnt 1 else s.hk.shortCnt } }
    let p := s.hk.phase
    if s.hk.declared then flagLast short s1
    else if p = .converting ∨ p = .delay ∨ p = .refWait ∨ p = .pwmWait ∨ p = .burnout then
      let s2 := hkStale (!short) short false { s1 with hk := { s1.hk with change := s1.hk.change || p == .converting } }
      let s3 := nextEntry s2
      fillReads { s3 with hk := { s3.hk with declared := true, declOn := (List.range 4).filter fun n => decide (tget (0, 0) s.hk.src n ≠ (0, 0)) } }
    else s1) s

end Sys2Proof.Machine
end

