-- ==== Sys2Proof/Machine/Boundary.lean ====
section
/-!
DEFINITION. Frame ends, the boundary gap and its token, the pending set, and the changes of state that wait for a
boundary (R23-R29, R89, R328, R337, R400, R401).
-/

namespace Sys2Proof.Machine

/-! ### The token in each domain (R25) -/

/-- A domain is powered and clocked: only then does a token cross it; the others acknowledge at once. -/
def domLive (s : State) (d : ClkDom) : Bool :=
  match d with
  | .sup => true
  | .smp | .cnv | .core | .cxk => devRuns s
  | .str => domUp s 19 && devRuns s
  | .lnk => (domUp s 15 || domUp s 16) && !s.pwr.lrefLost
  | .apc => domUp s 17 && !s.pwr.aprefLost
  | .hkd => domUp s 18

def allDoms : List ClkDom := [.sup, .smp, .cnv, .core, .str, .cxk, .lnk, .apc, .hkd]

/-- Ranges after new BANK and FIRE words (R41, R57). -/
def rangesSwap (r0 : Rd) (s : State) : State :=
  let s1 := each (poweredChans s) (fun c s => modFront c (swapRange r0 (rd s) c) s) s
  if domUp s 9 then
    each (List.range 4) (fun i s => if sinRange r0 i = sinRange (rd s) i then s else setRange (256 + i) (sinRange (rd s) i) s) s1
  else s1

/-- The new frame's header takes the closed frame's counters, which then start anew (R155). -/
def fillHeader (s : State) : State :=
  match s.fire.hdr with
  | none => s
  | some h =>
    let g := greyHeader s
    let x := g.1
    { g.2 with fire := { g.2.fire with
      cnt := { HdrCnt.zero with shots := s.fire.carry.length }
      carry := []
      hdr := some { h with first := s.fire.carry.head?, cnt := if s.fire.first then HdrCnt.zero else s.fire.cnt, greyMin := x.1, greyMed := x.2.1, greyMax := x.2.2.1, nPred := x.2.2.2.1, nClamp := x.2.2.2.2 } } }

/-- The frame a gap opens begins: its number, its SHOT count, which shots carried over lead, and on entry from ARMED the LFSR
and the histories (R29, R90, R91, R147). -/
def frameBegins (s : State) : State :=
  if ¬ s.fire.opens then s
  else
    let s1 := { s with fire := { s.fire with
      frame := (match s.fire.hdr with | some h => h.frame | none => s.fire.frame)
      shotCnt := s.fire.carry.length
      lfsr := if s.fire.first then ppmSeed (rd s) else s.fire.lfsr } }
    let s2 := if s.fire.first then { s1 with eng := { s1.eng with chs := tmodAll EngCh.reset s1.eng.chs (s1.eng.chs.map fun p => p.1) fun _ x => { x with hist := [] } } } else s1
    putItem 1 s2.fire.frame { s2 with sys := { s2.sys with frameNo := s2.fire.frame } }

/-- The N-of-M histories of the zone gates that new ZONE words change are cleared (R56). -/
def zoneSwap (r0 : Rd) (s : State) : State :=
  let new := fun k => decide (r0 4 (5 + k) ≠ rd s 4 (5 + k))
  { s with zone := { s.zone with hist := s.zone.hist.filter fun p => !new p.1 } }

/-- CORE's crossing. `r0` is the view of the closing epoch. -/
def coreSwap (r0 : Rd) (s : State) : State :=
  let s1 := { s with cfg := { s.cfg with old := tset [] s.cfg.old s.cfg.epoch s.cfg.active, epoch := s.cfg.epoch + 1 } }
  let s2 := if ppmSeed r0 = ppmSeed (rd s1) then s1 else { s1 with fire := { s1.fire with lfsr := ppmSeed (rd s1) } }
  let s3 := stkBoundary r0 (greyBoundary r0 (frameBegins s2))
  let s4 := dwellSwap (microSwap (gridSwap r0 (zoneSwap r0 s3)))
  if s4.fire.opens then fillHeader s4 else s4

/-- What a domain's crossing swaps. -/
def swapHook (d : ClkDom) (r0 : Rd) (s : State) : State :=
  match d with
  | .sup => fltSwap r0 s
  | .smp => rangesSwap r0 s
  | .cnv => s
  | .core => coreSwap r0 s
  | .str => if domUp s 19 then { s with axA := axSwap r0 (rd s) 0 s.axA, axB := axSwap r0 (rd s) 1 s.axB } else s
  | .cxk => s
  | .lnk => linkSwap r0 s
  | .apc => if domUp s 17 then archSwap r0 s else s
  | .hkd => if domUp s 18 then hkSwap r0 s else s

/-- The token crosses a domain. -/
def crossDom (d : ClkDom) (s : State) : State :=
  swapHook d (rd s) { s with cfg := { s.cfg with crossed := d :: s.cfg.crossed, waiting := s.cfg.waiting.filter (· != d) } }

/-- The last domain acknowledges: the set is ACTIVE (R26, R328). -/
def lastAck (s : State) : State :=
  let act := s.cfg.fixedBlocks.foldl (fun t id => tset [] t id (tget [] s.cfg.fixed id)) s.cfg.active
  let s1 := { s with cfg := { s.cfg with active := act, fixed := [], fixedBlocks := [], fixedId := none, token := false, waiting := [], crossed := [] } }
  match s.cfg.fixedId with
  | some n => irq 1 { s1 with sys := { s1.sys with appliedId := n } }
  | none => s1

/-- The set of committed slates is fixed; what was committed for a later boundary stays pending (R24, R401). -/
def fixSet (s : State) : State :=
  let c := s.cfg
  match c.held with
  | some h =>
    { s with cfg := { c with
      fixed := h.1, fixedBlocks := h.2.1, fixedId := h.2.2, held := none, heldNew := []
      pend := c.pend.filter fun p => c.heldNew.contains p.1
      pendBlocks := c.heldNew } }
  | none => { s with cfg := { c with fixed := c.pend, fixedBlocks := c.pendBlocks, fixedId := c.pendId, pend := [], pendBlocks := [], pendId := none } }

/-- A token enters every queue. -/
def sendToken (s : State) : State :=
  let s1 := { s with cfg := { s.cfg with token := true, waiting := allDoms, crossed := [] } }
  each (allDoms.filter fun d => !domLive s d) crossDom s1

/-- A token under way ends. -/
def finishToken (s : State) : State := if s.cfg.token then lastAck (each s.cfg.waiting crossDom s) else s

/-- A set waits. -/
def setWaits (s : State) : Bool := s.cfg.pendId.isSome || s.cfg.held.isSome || !s.cfg.pendBlocks.isEmpty

/-- No frame closes or opens at the next token. -/
def plainToken (s : State) : State := { s with fire := { s.fire with closes := false, opens := false, first := false } }

/-- The pending set applies at once: no frames run (R27, R328). -/
def applyNow (s : State) : State :=
  let s1 := finishToken s
  let s2 := if setWaits s1 then finishToken (sendToken (fixSet (plainToken s1))) else s1
  if setWaits s2 then finishToken (sendToken (fixSet s2)) else s2

/-- What waited for a boundary is awaited no longer: mode changes and calibration runs (R181, R270). -/
def waitsEnd (s : State) : State :=
  let free := fun (a : Axis) => { a with pendMode := a.pendMode.map fun m => { m with wait := false, crossed := false } }
  each (List.range 9) calAtOnce { s with axA := free s.axA, axB := free s.axB }

/-- Entry to IDLE from ARMED or HOLD (R27). -/
def enterIdle (s : State) : State :=
  waitsEnd (applyNow (setOp .idle { s with
    sys := { s.sys with statePend := false, stateTarget := 0 }
    fire := { s.fire with started := false, gap := false, ending := none, sched := [] } }))

/-! ### The gap (R24) -/

/-- Emitters and schedule at the entry to RUN (R89, R485). -/
def runEntry (tf : Nat) (s : State) : State :=
  { s with fire := { s.fire with
    anchor := some tf, sched := [], lastCross := none, belowFor := 0, carry := [], posCell := posCellOf (rd s) (coreAngle s 0)
    emits := tmodAll Emit.reset s.fire.emits (s.fire.emits.map fun p => p.1) fun _ x => { x with lastNom := none, lastKept := none } } }

/-- Frames stop at a boundary (R100, R171). -/
def stopFrames (s : State) : State :=
  discardStacks (fun k => k.claim.isNone)
    { s with fire := { s.fire with started := false, gap := false, sched := [], velInh := false, belowFor := 0 } }

/-- The state a pending change asks for. -/
def stateOf (n : Nat) : DevState := if n = 1 then .idle else if n = 2 then .armed else if n = 3 then .run else .hold

/-- How a gap opens: its G and T_f in ns, the frame it opens, what it closes and opens, and the flags of the closed frame's end. -/
structure GapAt where
  g : Nat
  tf : Nat
  frame : Nat
  closes : Bool
  opens : Bool
  first : Bool
  forced : Bool
  limit : Bool
  deriving DecidableEq, Repr

/-- What the gap does before its set is fixed: a header not yet sent leaves, measured values enter the sets, range changes
apply. -/
def gapWork (s : State) : State :=
  each (List.range 260) applyRange (calBoundary (match s.fire.hdr with | some h => sendHeader h s | none => s))

/-- The gap opens: pending ranges apply, calibration takes its turn, the set is fixed and the token is sent; a cascade's master
drives FSYNC (R398). -/
def openGap (x : GapAt) (s : State) : State :=
  let s2 := gapWork s
  let h : HdrPend := ⟨x.frame, s.sys.tempHold, x.forced, x.limit, HdrCnt.zero, 0, 0, 0, 0, 0, none⟩
  let s3 := { s2 with
    fire := { s2.fire with
      tf := x.tf, gap := true, gapAt := x.g, closes := x.closes, opens := x.opens, first := x.first, started := true
      ending := none, defers := 0, hdr := if x.opens then some h else none }
    sys := { s2.sys with forcedCnt := satAdd 16 s2.sys.forcedCnt (b2n x.forced) }
    casc := { s2.casc with fsyncAt := if cascMaster s2 then some s2.sys.now else s2.casc.fsyncAt } }
  let s4 := if x.opens then frameDelays x.frame s3 else stopFrames s3
  let s5 := if x.opens ∧ ¬ x.closes then runEntry x.tf s4 else s4
  sendToken (fixSet s5)

/-- The state change that waited for the gap takes effect (R337). -/
def pendingState (s : State) : State :=
  if s.sys.statePend then setOp (stateOf s.sys.stateTarget) { s with sys := { s.sys with statePend := false, stateTarget := 0 } } else s

/-- A gap that closes a frame at `g` opens the next unless a change of state waits for it. -/
def closeGap (g tf frame : Nat) (forced limit : Bool) (s : State) : State :=
  let stop := s.sys.statePend && s.sys.stateTarget != 3
  pendingState (openGap ⟨g, if stop then g else tf, frame, true, !stop, false, forced, limit⟩ s)

/-- RUN has been asked for and its first gap has not opened. -/
def runAwaits (s : State) : Bool :=
  (opState s == .armed && s.sys.statePend && s.sys.stateTarget == 3) || (opState s == .run && !s.fire.started)

/-- The gap that opens the first frame after RUN was asked for; a cascade's master tells T_f in ANCHOR and changes its
state there (R398). -/
def firstGap (g : Nat) (s : State) : State :=
  let first := opState s == .armed
  let frame := if first then 0 else wrapAdd 32 s.fire.frame 1
  let gap := frameGap (rdNext s)
  let stop := s.sys.statePend && s.sys.stateTarget != 3
  let tf := g + if stop then 0 else if cascMaster s then max gap (leadNs (rd s)) else gap
  let s1 := openGap ⟨g, tf, frame, false, !stop, first, false, false⟩ s
  if cascMaster s && !stop then
    let e := SchedEvent.anchor tf
    ringSend (.sched e) (ringSend (.sched e) { s1 with casc := { s1.casc with events := s1.casc.events ++ [(e, s.sys.cyc, false)] } })
  else pendingState s1

/-- The nominal times that come before a gap are all stepped. -/
def allStepped (s : State) (upTo : Nat) : Bool := match nextShot s with | some p => decide (upTo ≤ p.2) | none => true

/-- Every window of a shot in flight has ended by cycle `t`. -/
def windowsOver (s : State) (t : Nat) : Bool := s.fire.shots.all fun x => x.released || x.ended || listenOver x t

/-! ### Commands -/

/-- INDEX_CROSSING: axis A's index as CORE sees it (R23, R260, R398). -/
def execIndexCrossing (t : Nat) (s : State) : Out :=
  .next (let s1 := advTo t s
    if frameMode (rd s1) = 0 ∧ canEnd s1 ∧ domUp s1 19 ∧ devRuns s1 then
      frameEvent ((t + 4) / 5 + if cascMaster s1 then leadNs (rd s1) else 0) false false s1
    else s1)

/-- FSYNC_EDGE: an ending event, or on a cascade's slave a check of its DEVTIME against G (R23, R398). -/
def execFsyncEdge (rising : Bool) (t : Nat) (s : State) : Out :=
  .next (let s1 := advTo t s
    if ¬ devRuns s1 then s1
    else if ¬ ownsFrames s1 then
      let gs := s1.fire.gapAt :: s1.casc.events.filterMap fun p => match p.1 with | .frameEnd g _ _ => some g | _ => none
      if ¬ rising ∨ s1.sys.timeSet.isSome ∨ ¬ s1.fire.started ∨ (gs.any fun g => decide (((t : Int) - 5 * g).natAbs ≤ 5)) then s1
      else irq 11 { s1 with casc := { s1.casc with syncErr := satAdd 8 s1.casc.syncErr 1 } }
    else if frameMode (rd s1) = 2 ∧ rising = !fsyncEdgeSel (rd s1) ∧ canEnd s1 then frameEvent ((t + 4) / 5) false false s1
    else s1)

/-- FRAME_LIMIT_EXPIRY: as if the event had come (R23). -/
def execFrameLimitExpiry (t : Nat) (s : State) : Out :=
  .next (let s1 := advTo t s
    let l := frameLimit (rd s1)
    if frameMode (rd s1) ≠ 1 ∧ l ≠ 0 ∧ canEnd s1 ∧ devRuns s1 ∧ s1.fire.tf + 10000000 * l ≤ (t + 4) / 5 then
      frameEvent ((t + 4) / 5 + if cascMaster s1 then leadNs (rd s1) else 0) false true s1
    else s1)

/-- BOUNDARY_GAP_OPEN: the ending frame's last window has ended, or RUN begins (R24, R31). The gap opens at G, unless the
FRAME.GAP of the set that applies there still defers the boundary (R28). In a cascade the gaps of frames that run open by
FRAME_END. -/
def execBoundaryGapOpen (t : Nat) (s : State) : Out :=
  .next (
    let g := (t + 4) / 5
    if ¬ devRuns s ∨ s.cfg.token ∨ ¬ ownsFrames s then s
    else if runAwaits s then firstGap g (advTo t s)
    else if ¬ running s ∨ s.fire.gap ∨ cascMaster s then s
    else match s.fire.ending with
      | none => s
      | some e =>
        if g < e.g ∨ ¬ windowsOver s t ∨ ¬ allStepped s (if e.forced then e.g else e.ev) then s
        else
          let s1 := advTo (5 * e.g) s
          let g1 := max e.g (devNs s)
          let gap := frameGap (rdNext s1)
          let soon := tooSoon g1 gap ((nextShot s1).map fun p => p.2) s1
          if soon ∧ ¬ e.forced ∧ s1.fire.defers < deferMax (rd s1) then deferFrame s1
          else closeGap g1 (g1 + gap) (wrapAdd 32 s1.fire.frame 1) (e.forced || soon) e.limit s1)

/-- TOKEN_ARRIVAL (R25). -/
def execTokenArrival (d : ClkDom) (s : State) : Out := .next (if s.cfg.token ∧ s.cfg.waiting.contains d then crossDom d s else s)

/-- TOKEN_ACK: once every domain has acknowledged (R26). -/
def execTokenAck (s : State) : Out := .next (if s.cfg.token ∧ s.cfg.waiting = [] then lastAck s else s)

/-- GAP_END: T_f is reached and every domain has acknowledged (R24, R26). -/
def execGapEnd (t : Nat) (s : State) : Out :=
  .next (if s.fire.gap ∧ s.fire.opens ∧ ¬ s.cfg.token ∧ s.fire.tf ≤ (t + 4) / 5 then
      { advTo t s with fire := { s.fire with gap := false } }
    else s)

/-- SAFE_PENDING_APPLY: once no listening window is open, the set applies through a token without a gap (R27). -/
def execSafePendingApply (s : State) : Out :=
  .next (if opState s ≠ .safe ∨ s.cfg.token ∨ (devRuns s ∧ ¬ windowsOver s s.sys.cyc) then s
    else
      let s1 := waitsEnd s
      if setWaits s1 then sendToken (fixSet (plainToken s1)) else s1)

/-- Every enabled emitter. -/
def enabledEmitters (s : State) : List Nat := (List.range 16).filter (emEn (rd s))

/-- A crossing's nominal times enter the schedule: `base` ns plus each emitter's PHASE (R89). -/
def crossTimes (base : Nat) (s : State) : State :=
  { s with fire := { s.fire with sched := s.fire.sched ++ (enabledEmitters s).map fun e => (e, base + emPhase (rd s) e) } }

/-- A crossing known before the gap may defer the boundary, or have its nominal times withheld ahead of G (R28, R29). A
FRAME_END already sent stands (R400). -/
def crossDefers (s : State) : State :=
  match s.fire.ending, nextShot s with
  | some e, some p =>
    if s.fire.gap ∨ e.g + (if cascMaster s then frameGap (rdNext s) else leastGap) ≤ p.2 ∨ p.2 < e.ev then s
    else if ¬ cascMaster s ∧ s.fire.defers < deferMax (rd s) then deferFrame s
    else { s with fire := { s.fire with ending := some { e with forced := true } } }
  | _, _ => s

/-- POSITION_CROSSING: at `t` axis A has crossed a grid angle in RUN, as its angle shows (R89, R260, R398, R400); several
crossed at once are taken one by one. In a cascade the master sends CROSS; crossings closer than 500 ns are counted by every
device and not sent. -/
def execPositionCrossing (t : Nat) (s : State) : Out :=
  .next (let s1 := advTo t s
    let r := rd s1
    let cell := posCellOf r (coreAngle s1 0)
    if ¬ running s1 ∨ ¬ schedPos r ∨ ¬ domUp s1 19 ∨ ¬ devRuns s1 ∨ cell = s1.fire.posCell then s1
    else
      let close := match s1.fire.lastCross with | some l => decide (t < l + ns 500) | none => false
      let s2 := { s1 with fire := { s1.fire with lastCross := some t, posCell := posToward (posCells r) s1.fire.posCell cell } }
      if s1.sys.cascRole ∧ s1.casc.enumOk then
        if close then each (enabledEmitters s2) (fun e => modEmit e fun m => { m with posSkip := satAdd 8 m.posSkip 1 }) s2
        else if isMaster s2 then
          let e := SchedEvent.cross ((t + 4) / 5 + leadNs r)
          ringSend (.sched e) (ringSend (.sched e) { s2 with casc := { s2.casc with events := s2.casc.events ++ [(e, t, false)] } })
        else s2
      else
        let f := takeFree 8 s2
        crossDefers (crossTimes ((t + 4) / 5 + 255 + f.1 % 11) f.2))

end Sys2Proof.Machine
end

