-- ==== Sys2Proof/Machine/Cascade.lean ====
section
/-!
DEFINITION. The cascade (R392-R404): the ring's messages, enumeration, alignment of DEVTIME, the shared schedule,
forwarding, and ring loss.
-/

namespace Sys2Proof.Machine

/-- A ring message arrives: a device in a cascade with D9 on takes it; a bad CRC is counted and dropped (R394). -/
def ringIn (crcOk : Bool) (f : State → State) (s : State) : Out :=
  .next (if ¬ s.sys.cascRole ∨ ¬ domUp s 9 then s
    else if ¬ crcOk then { s with casc := { s.casc with crcErr := satAdd 16 s.casc.crcErr 1 } }
    else f s)

/-! ### Ring loss (R403, R404, R316) -/

/-- Forwarded requests without a reply are answered CASC_FAIL; `n` of them count as timed out. -/
def failForwards (timedOut : Bool) (s : State) : State :=
  let n := (s.casc.fwd.filter fun f => f.reply.isNone).length
  settle { s with casc := { s.casc with
    fwdTo := if timedOut then satAdd 8 s.casc.fwdTo n else s.casc.fwdTo
    fwd := s.casc.fwd.map fun f =>
      if f.reply.isSome then f else { f with reply := some ⟨f.req.org, f.opc, f.req.seq, 13, BitVec.ofNat 8 f.dest, []⟩ } } }

/-- A confirmation that a device does not answer fails, and the timers run on (R442). -/
def failConfirm (s : State) : State :=
  match s.upd.confirmReq with
  | some q => replyTo 0x64 q 13 [] { s with upd := { s.upd with confirmReq := none }, casc := { s.casc with updWait := [] } }
  | none => s

/-- The ring is down: nothing is enumerated or aligned. -/
def ringDown (s : State) : State :=
  failForwards false <| failConfirm { s with casc := { s.casc with ringUp := false, enumOk := false, aligned := false, frag := [] } }

/-- A slave declares ring loss: LOSS goes downstream, and it is a protective fault. -/
def slaveLoss (s : State) : State :=
  if isSlave s ∧ domUp s 9 ∧ s.casc.ringUp then
    let s1 := ringSend (.loss (devIdx s)) { s with casc := { s.casc with ringLoss := satAdd 16 s.casc.ringLoss 1, ringUp := false, enumOk := false, aligned := false } }
    let f := takeFree 32 s1
    protective 7 0 f.1 f.2
  else s

/-- RING_LOSS_SLAVE: no good message for 2.0 µs. -/
def execRingLossSlave (s : State) : Out := .next (slaveLoss s)

/-- RING_RECEIVER_LOCK_LOSS. -/
def execRingReceiverLockLoss (s : State) : Out := .next (slaveLoss s)

/-- HEARTBEAT_TIMEOUT: the master declares ring loss; its fire goes on (R404). -/
def execHeartbeatTimeout (s : State) : Out :=
  .next (if isMaster s ∧ domUp s 9 ∧ s.casc.ringUp then
      let s1 := ringDown { s with casc := { s.casc with
        ringLoss := satAdd 16 s.casc.ringLoss 1
        breakAt := s.casc.lossFrom.getD s.casc.breakAt
        waitBreak := s.casc.lossFrom.isNone
        lossFrom := none } }
      irq 11 (logNote 7 4 0 (raiseOpen 7 0 s1))
    else s)

/-- BREAK_AT_TIMEOUT: no LOSS within 10 µs. -/
def execBreakAtTimeout (s : State) : Out :=
  .next (if s.casc.waitBreak then { s with casc := { s.casc with waitBreak := false, breakAt := 0 } } else s)

/-- LOSS: slaves pass it on; the first to reach the master sets BREAK_AT. -/
def execLoss (sender : Nat) (crcOk : Bool) (s : State) : Out :=
  ringIn crcOk (fun s =>
    if isMaster s then
      if s.casc.waitBreak then { s with casc := { s.casc with waitBreak := false, breakAt := sender % 8 } }
      else if s.casc.ringUp ∧ s.casc.lossFrom.isNone then { s with casc := { s.casc with lossFrom := some (sender % 8) } }
      else s
    else if sender = devIdx s then s
    else ringSend (.loss sender) s) s

/-- FAULT: passed on once around, and obeyed with FAULT_SHARE (R402). -/
def execFault (sender src : Nat) (crcOk : Bool) (s : State) : Out :=
  ringIn crcOk (fun s =>
    if sender = devIdx s then s
    else
      let s1 := ringSend (.fault sender src) s
      if faultShare (rd s) then enterSafe 0x10 (sender % 8) src false s1 else s1) s

/-- FORWARD_TIMEOUT (R316). -/
def execForwardTimeout (s : State) : Out :=
  .next (if (s.casc.fwd.any fun f => f.reply.isNone) ∨ s.upd.confirmReq.isSome then failForwards true (failConfirm s) else s)

/-! ### Enumeration (R396) -/

/-- ENUM goes out. -/
def sendEnum (s : State) : State := ringSend (.enum []) s

/-- The enumeration in hand ends with a status and its words. -/
def endEnum (st : Nat) (words : List Word) (s : State) : State :=
  match s.casc.enumReq with
  | some (q, pended) =>
    let s1 := { s with casc := { s.casc with enumReq := none } }
    settle (if pended then irq 11 s1 else replyTo 0x80 q st words s1)
  | none => s

/-- One reply word per device, in ring order (R396). -/
def enumWord (pos : Nat) (e : EnumEntry) : Word := wd (put pos 8 24 + put e.idx 3 21 + put (b2n e.role) 1 20 + put e.die 20 0)

/-- CASC_ENUM. -/
def execCascEnum (q : Req) (s : State) : Out :=
  .next (serve 0x80 true (decide (q.payload.length = 0)) (fun q s =>
    if ¬ isMaster s then replyTo 0x80 q 10 [] s
    else if s.casc.ringUp then sendEnum { s with casc := { s.casc with enumReq := some (q, false) } }
    else replyTo 0x80 q 12 [] { s with casc := { s.casc with enumReq := some (q, true) } }) q s)

/-- ENUM: a slave appends itself and takes itself as enumerated; the master checks what returns. -/
def execEnum (entries : List EnumEntry) (crcOk : Bool) (s : State) : Out :=
  ringIn crcOk (fun s =>
    let own : EnumEntry := ⟨devIdx s, s.sys.cascRole, Config.dieNumber % 2 ^ 20⟩
    if isSlave s then
      let l := entries ++ [own]
      ringSend (.enum l) { s with casc := { s.casc with enumOk := true, present := sortBy (fun (n : Nat) => (n : Int)) ((0 :: l.map fun e => e.idx % 8).eraseDups) } }
    else if s.casc.enumReq.isNone then s
    else
      let l := own :: entries
      let idx := l.map fun e => e.idx
      if idx.length = idx.eraseDups.length ∧ ¬ (entries.any fun e => e.role && e.idx == 0) then
        endEnum 0 ((List.range l.length).map fun i => enumWord i (l.getD i own))
          { s with casc := { s.casc with enumOk := true, present := sortBy (fun (n : Nat) => (n : Int)) idx } }
      else endEnum 13 [] { s with casc := { s.casc with enumOk := false } }) s

/-- ENUM_TIMEOUT: the ring did not close within 1 ms. -/
def execEnumTimeout (s : State) : Out :=
  .next (match s.casc.enumReq with
    | some (_, pended) => if pended ∧ ¬ s.casc.ringUp then s else endEnum 13 [] { s with casc := { s.casc with enumOk := false } }
    | none => s)

/-- HEARTBEAT_SEND: the master, every 0.5 µs. -/
def execHeartbeatSend (s : State) : Out :=
  .next (if isMaster s ∧ domUp s 9 then
      ringSend (.heartbeat s.fire.frame s.casc.ringSeq) { s with casc := { s.casc with ringSeq := wrapAdd 32 s.casc.ringSeq 1 } }
    else s)

/-- HEARTBEAT: a slave passes it on; back at the master it shows the ring closed, and an enumeration that waited starts. -/
def execHeartbeat (frame ringSeq : Nat) (crcOk : Bool) (s : State) : Out :=
  ringIn crcOk (fun s =>
    let s1 := { s with casc := { s.casc with ringUp := true, lossFrom := none } }
    if isSlave s then ringSend (.heartbeat frame ringSeq) s1
    else if ¬ s.casc.ringUp ∧ s.casc.enumReq.isSome then sendEnum s1
    else s1) s

/-! ### TIME_SET (R96, R397) -/

/-- The first instant (ns of the present count) at least `d` ns away at which DEVTIME is a multiple of 2,000 ns. -/
def loadAt (d : Nat) (s : State) : Nat :=
  let t := (s.sys.cyc + 4) / 5 + d
  let w := t % 2 ^ 64
  t - w + min ((w + 1999) / 2000 * 2000) (2 ^ 64)

/-- TIME_SET: range, state, then D9 and the role; the master of a cascade distributes V. An order of the master gives a
slave its V. -/
def execTimeSet (q : Req) (s : State) : Out :=
  .next (serve 0x23 true (decide (q.payload.length = 2)) (fun q s =>
    let v := (qw q 0).toNat + 2 ^ 32 * (qw q 1).toNat
    if isOrder q s then ringSend (.ack (devIdx s) .timeSet) { s with sys := { s.sys with timeSet := some (v, q), tsAt := 0 } }
    else if v % 2000 ≠ 0 then replyTo 0x23 q 8 [] s
    else if s.sys.devState ≠ .idle ∧ s.sys.devState ≠ .armed then replyTo 0x23 q 7 [] s
    else if ¬ domUp s 9 ∨ isSlave s then replyTo 0x23 q 10 [] s
    else
      if cascMaster s ∧ others s ≠ [] then
        ringSend (.timeSet v) { s with sys := { s.sys with timeSet := some (v, q), tsAt := 0 }, casc := { s.casc with tsWait := some (others s) } }
      else { s with sys := { s.sys with timeSet := some (v, q), tsAt := loadAt 0 s } }) q s)

/-- An ACK of TIME_SET: after the last, T is the first multiple of 2,000 ns at least 10 µs later. -/
def ackTimeSet (sender : Nat) (s : State) : State :=
  match s.casc.tsWait with
  | some l =>
    let r := remNat l sender
    if r = [] ∧ l ≠ [] then
      { s with
        casc := { s.casc with tsWait := none }
        sys := { s.sys with tsAt := loadAt 10000 s } }
    else { s with casc := { s.casc with tsWait := some r } }
  | none => s

/-- TIME_SET_ACK_TIMEOUT: no device loads. -/
def execTimeSetAckTimeout (s : State) : Out :=
  .next (match s.casc.tsWait, s.sys.timeSet with
    | some (_ :: _), some (_, q) =>
      settle (replyTo 0x23 q 13 [] { s with casc := { s.casc with tsWait := none }, sys := { s.sys with timeSet := none } })
    | _, _ => s)

/-- A time of the old count on the new one. -/
def shiftTime (d : Int) (t : Nat) : Nat := ((t : Int) + d).toNat

/-- A window at a load that moves the count by `d` cycles at cycle `now`: one that is parked keeps its first-cell time; one
still reserved is parked later and goes on with the new count, while a slot already begun stays at the ring position that holds
its samples (R68, R96). -/
def carryWin (d : Int) (now : Nat) (w : Win) : Win :=
  if w.stage = .reserved then
    let m := shiftTime (d / 16) w.slot
    { w with
      slot := m
      posA := if now ≤ 16 * w.slot then m % 64 else w.posA
      posB := if now ≤ 16 * (w.slot + 1) then (m + 1) % 64 else w.posB
      parkAt := shiftTime (d / 16) w.parkAt, first := shiftTime d w.first, stamp := shiftTime d w.stamp }
  else { w with carried := true }

/-- DEVTIME is loaded with `v` ns: both grids go on, windows in hand keep their times, requests not yet taken move with
the count (R96). -/
def loadTime (v : Nat) (s : State) : State :=
  let d : Int := 5 * (v : Int) - s.sys.cyc
  let move := fun (a : Axis) => { a with ssiAt := shiftTime d a.ssiAt, reloadAt := shiftTime d a.reloadAt }
  { s with
    sys := { s.sys with cyc := 5 * v, timeSet := none, tsAt := 0 }
    axA := move s.axA
    axB := move s.axB
    fire := { s.fire with shots := s.fire.shots.map fun x =>
      { x with endAt := x.endAt + d, rampAt := convCycle (5 * v) + (x.rampAt - convCycle s.sys.cyc) } }
    fronts := tmodAll Front.reset s.fronts (s.fronts.map fun p => p.1) fun _ x =>
      { x with lastTrig := none, satAt := shiftTime d x.satAt, satLog := x.satLog.map fun p => (shiftTime d p.1, shiftTime d p.2) }
    samp := { s.samp with
      wins := s.samp.wins.map (carryWin d s.sys.cyc)
      reqs := s.samp.reqs.map fun r => { r with stamp := shiftTime d r.stamp, at_ := shiftTime d r.at_ }
      calReqs := s.samp.calReqs.map fun r => (r.1, shiftTime (d / 16) r.2.1, r.2.2) }
    cal := { s.cal with gated := s.cal.gated ++ s.cal.gated.map fun q => (q.1, shiftTime (d / 16) q.2.1, q.2.2) }
    casc := { s.casc with events := [] } }

/-- TIME_SET_LOAD: at the instant fixed for it; on a slave at its master's FSYNC edge, which comes at a multiple of 2,000 ns
of the master's count. -/
def execTimeSetLoad (t : Nat) (s : State) : Out :=
  .next (match s.sys.timeSet with
    | none => s
    | some (v, q) =>
      if ¬ devRuns s ∨ s.casc.tsWait.isSome ∨ (q.org ≠ .ring ∧ (s.sys.tsAt = 0 ∨ t ≠ 5 * s.sys.tsAt)) then s
      else
        let s1 := loadTime v (advTo t s)
        let s2 := if isSlave s ∨ cascMaster s then { s1 with casc := { s1.casc with
            aligned := true, fsyncAt := if cascMaster s ∧ others s ≠ [] then some s1.sys.now else s1.casc.fsyncAt } } else s1
        settle (if q.org = .ring then s2 else replyTo 0x23 q 0 [] s2))

/-- FSYNC as the master drives it: high for 100 ns from each edge (R392, R397, R398). -/
def fsyncPin (s : State) : Bool :=
  isMaster s && match s.casc.fsyncAt with | some r => decide (s.sys.now < r + ns 100) | none => false

/-! ### The shared schedule (R398-R400) -/

def evAct (e : SchedEvent) : Nat := match e with | .anchor a => a | .cross a => a | .frameEnd a _ _ => a

/-- The event is acted on. -/
def markDone (e : SchedEvent) (s : State) : State :=
  { s with casc := { s.casc with events := s.casc.events.map fun p => if p.1 = e then (p.1, p.2.1, true) else p } }

/-- The oldest event of a kind that has not been acted on. -/
def nextEvent (p : SchedEvent → Bool) (s : State) : Option (SchedEvent × Nat) :=
  (s.casc.events.find? fun x => p x.1 && !x.2.2).map fun x => (x.1, x.2.1)

def isAnchor (e : SchedEvent) : Bool := match e with | .anchor _ => true | _ => false
def isCross (e : SchedEvent) : Bool := match e with | .cross _ => true | _ => false
def isFrameEnd (e : SchedEvent) : Bool := match e with | .frameEnd _ _ _ => true | _ => false

/-- A slave may follow the master into RUN. -/
def canFollow (s : State) : Bool :=
  opState s == .armed || opState s == .hold || (opState s == .run && !s.fire.started)

/-- A damaged copy of a schedule event is dropped; the second of one event is ring loss on a slave (R394). -/
def schedLost (ev : SchedEvent) (s : State) : State :=
  let s1 := { s with casc := { s.casc with crcErr := satAdd 16 s.casc.crcErr 1, badSched := some ev } }
  if isSlave s ∧ s.casc.badSched = some ev then slaveLoss { s1 with casc := { s1.casc with badSched := none } } else s1

/-- SCHED on a slave: passed on; the first good copy counts. ANCHOR gives the first gap its T_f; an ANCHOR or FRAME_END
after its act time is ring loss, and so is the loss of both copies (R394, R399). -/
def execSched (ev : SchedEvent) (crcOk : Bool) (t : Nat) (s : State) : Out :=
  ringIn true (fun s =>
    if ¬ crcOk then schedLost ev s
    else if ¬ isSlave s then s
    else
      let s0 := advTo t s
      let s1 := ringSend (.sched ev) { s0 with casc := { s0.casc with badSched := none } }
      if (s1.casc.events.any fun p => p.1 == ev) then s1
      else
        let kept := s1.casc.events.filter fun p => !p.2.2 || decide (t ≤ 5 * evAct p.1 + ns 1000)
        if ¬ isCross ev ∧ 5 * evAct ev < t then slaveLoss s1
        else
          let s2 := { s1 with casc := { s1.casc with events := kept ++ [(ev, t, false)] } }
          if isAnchor ev ∧ canFollow s2 ∧ ¬ s2.cfg.token ∧ devRuns s2 then
            let first := opState s2 == .armed
            openGap ⟨(t + 4) / 5, evAct ev, if first then 0 else wrapAdd 32 s2.fire.frame 1, false, true, first, false, false⟩ s2
          else s2) s

/-- ANCHOR: at T_f of the first frame RUN begins (R398). Whether the grid starts anew in every frame is the master's
FRAME.MODE, which a slave is not told. -/
def execAnchor (t : Nat) (s : State) : Out :=
  .next (match nextEvent isAnchor s with
    | some (ev, _) =>
      if t < 5 * evAct ev then s
      else
        let s1 := markDone ev (advTo t s)
        if ¬ canFollow s1 ∧ ¬ (opState s1 = .run) then s1
        else
          let f := takeFree 1 s1
          let s2 := if isSlave s1 then { f.2 with fire := { f.2.fire with reanchor := decide (f.1 = 1) } } else s1
          setOp .run { s2 with sys := { s2.sys with statePend := false, stateTarget := 0 } }
    | none => s)

/-- One emitter's nominal time of a CROSS: scheduled, or, after its code step, stepped and skipped (R399). -/
def crossOne (act arrival : Nat) (e : Nat) (s : State) : State :=
  let nom := act + emPhase (rd s) e
  if arrival ≤ ns (nom - 200) then { s with fire := { s.fire with sched := s.fire.sched ++ [(e, nom)] } }
  else
    let s1 := countNominal e nom (codeOf (rd s) s e).1 s
    modEmit e (fun m => { m with posSkip := satAdd 8 m.posSkip 1 }) s1

/-- CROSS. -/
def execCross (s : State) : Out :=
  .next (match nextEvent isCross s with
    | some (ev, arrival) =>
      let s1 := markDone ev s
      if ¬ running s1 ∨ ¬ schedPos (rd s1) then s1
      else
        let es := enabledEmitters s1
        let late := es.any fun e => decide (ns (evAct ev + emPhase (rd s1) e - 200) < arrival)
        let s2 := each es (crossOne (evAct ev) arrival) s1
        crossDefers (if late then irq 11 { s2 with casc := { s2.casc with syncErr := satAdd 8 s2.casc.syncErr 1 } } else s2)
    | none => s)

/-- FRAME_END: at G the gap opens on every device with the master's frame number and T_f; the flags of the closed frame's
end are not in the message, so free values on a slave. -/
def execFrameEnd (t : Nat) (s : State) : Out :=
  .next (match nextEvent isFrameEnd s with
    | some (.frameEnd g frame tf, _) =>
      if t < 5 * g ∨ s.cfg.token then s
      else
        let s1 := markDone (.frameEnd g frame tf) (advTo t s)
        if ¬ running s1 ∨ ¬ devRuns s1 then s1
        else
          match s1.fire.ending with
          | some e => closeGap g tf frame e.forced e.limit s1
          | none =>
            let a := takeFree 1 s1
            let b := takeFree 1 a.2
            closeGap g tf frame (decide (a.1 = 1)) (decide (b.1 = 1)) b.2
    | _ => s)

/-! ### Packets over the ring (R316, R395) -/

/-- A reply returns to the master. -/
def ringReply (src : Nat) (b : List Byte) (s : State) : State :=
  if ¬ packetCrcOk b then s
  else
    let p := wordsOf ((b.drop 8).take (4 * hdrLen b))
    let take := fun (f : Fwd) =>
      if f.dest = src ∧ f.opc = b.getD 1 0 ∧ f.req.seq = b.getD 2 0 ∧ f.reply.isNone then
        { f with reply := some ⟨f.req.org, b.getD 1 0, b.getD 2 0, b.getD 3 0, b.getD 6 0, p⟩ }
      else f
    settle { s with casc := { s.casc with fwd := s.casc.fwd.map take } }

/-- A whole packet has come over the ring. -/
def ringPacketIn (src : Nat) (b : List Byte) (s : State) : State :=
  if b.getD 0 0 = 0x6C then ringReply src b s
  else if headerOk b then settle (bufPacket .ring (b.take (12 + 4 * hdrLen b)) s)
  else s

/-- PKT: a fragment for this device is reassembled; others are passed on until they return to their sender. -/
def execPkt (src dst : Nat) (bytes : List Byte) (last crcOk : Bool) (s : State) : Out :=
  ringIn crcOk (fun s =>
    if src = devIdx s then s
    else if dst ≠ devIdx s then (if isSlave s then ringSend (.pkt src dst bytes last) s else s)
    else
      let b := tget [] s.casc.frag src ++ bytes
      if last then ringPacketIn src b { s with casc := { s.casc with frag := tset [] s.casc.frag src [] } }
      else { s with casc := { s.casc with frag := tset [] s.casc.frag src b } }) s

end Sys2Proof.Machine
end

