-- ==== Sys2Proof/Machine/Power.lean ====
section
/-!
DEFINITION. Power domains, clocks and rails (R20-R22, R408, R409, R415-R421).
-/

namespace Sys2Proof.Machine

/-! ### Lists of records that go with a domain -/

/-- Records of the channels in `gone` leave a frame's bytes: what is kept, and the channels of what is lost. -/
def dropRecords (size at_ : Nat) (gone : Nat → Bool) : Nat → List Byte → List Byte × List Nat
  | 0, b => (b, [])
  | n + 1, b =>
    if b.length < size then (b, [])
    else
      let r := dropRecords size at_ gone n (b.drop size)
      let c := (b.getD at_ 0).toNat
      if gone c then (r.1, c :: r.2) else (b.take size ++ r.1, r.2)

/-- Records of the channels in `gone` that stream `v` has not sent yet are lost (R420). -/
def dropStream (v size at_ : Nat) (gone : Nat → Bool) (s : State) : State :=
  let fs := (tget [] s.link.ready v).map fun f =>
    let h := if f.fh then 64 else 0
    let d := dropRecords size at_ gone 16 (f.bytes.drop h)
    ({ f with bytes := f.bytes.take h ++ d.1 }, d.2)
  let s1 := { s with link := { s.link with ready := tset [] s.link.ready v ((fs.map fun p => p.1).filter fun f => f.bytes != []) } }
  each (fs.flatMap fun p => p.2) (fun c s => noteLoss c none (hdrLost s)) s1

/-! ### Domains going off (R420) -/

/-- Windows of a bank that are not converted are shed by the shots that claim them. -/
def shedBank (b : Nat) (s : State) : State :=
  let mine := fun (w : Win) => w.ch < 256 && w.ch / 32 == b
  let lost := s.samp.wins.filter fun w => mine w && w.stage != .converted
  let s1 := each lost (fun w s =>
    noteLoss w.ch (claimOf s w) (hdrShed (modEngCh w.ch (fun x => { x with shed := satAdd 16 x.shed 1 }) s))) s
  let s2 := each (groupChans b) (fun c s => modEngCh c (fun x => { x with gapPend := true }) s) s1
  { s2 with samp := { s2.samp with
    wins := s2.samp.wins.filter fun w => !mine w || (w.stage == .converted && !w.handed)
    reqs := s2.samp.reqs.filter fun q => !(q.ch < 256 && q.ch / 32 == b)
    gateReqs := s2.samp.gateReqs.filter fun q => q.1 / 32 != b
    calReqs := s2.samp.calReqs.filter fun q => !(q.1 < 256 && q.1 / 32 == b) } }

/-- What a power cycle leaves of a front end: the stuck mask, which FAULT_CLEAR alone takes away (R51). -/
def frontAtRest (x : Front) : Front := { Front.reset with stuckMask := x.stuckMask, maskHeld := x.maskHeld }

/-- Front ends and zone histories of channels that go off. -/
def clearFronts (cs : List Nat) (s : State) : State :=
  { s with
    fronts := tmodAll Front.reset s.fronts cs fun _ x => frontAtRest x
    zone := { s.zone with
      hist := s.zone.hist.filter fun p => !cs.contains (p.1 / 2)
      queue := s.zone.queue.filter fun p => !cs.contains p.1 } }

/-- A bank goes off. -/
def bankOff (b : Nat) (s : State) : State := calDomainOff b (clearFronts (groupChans b) (shedBank b s))

/-- A task that the bound of a drain leaves: windows are late, finish tasks go, start windows are lost. -/
def drainTask (t : Task) (s : State) : State :=
  match t with
  | .start w _ => startLost w s
  | .fin sid c _ =>
    modShot sid (fun y => { y with finOut := remNat y.finOut c })
      { s with eng := { s.eng with cands := s.eng.cands.filter fun p => !(p.1 == sid && p.2.1 == c) } }
  | t => if 256 ≤ taskCh t then s else countDone (taskSid t) (lateWindow (taskCh t) (taskSid t) s)

/-- The windows of a list of held candidates. -/
def candWindows (l : List (Nat × Nat × Nat × Cand)) : List Nat := (l.map fun p => p.2.2.1).eraseDups

/-- With the last slice the held candidates, the GAP bits and the status words are lost (R108). -/
def lastSlice (s : State) : State :=
  let s1 := each (candWindows s.eng.cands) (fun _ s => hdrShed s) s
  let waiting := s1.eng.startQ
  let s2 := each waiting drainTask { s1 with eng := { s1.eng with startQ := [] } }
  let s3 := modShots (fun x => { x with finOut := [], coded := [] }) s2
  { s3 with eng := { s3.eng with
    cands := [], finWait := [], echoes := [], raws := [], chs := [], reorderFull := 0, fullSince := none, fullNext := 0
    mcActive := 0, mcSlate := 0, slateReady := false, stores := [] } }

/-- Channel `c` is at home in quarter `q`, or was before its drain. -/
def homedIn (q : Nat) (s : State) (c : Nat) : Bool :=
  homeQuarter s c == some q || homeQuarter { s with pwr := { s.pwr with draining := remNat s.pwr.draining (10 + q) } } c == some q

/-- Records of quarter `q`'s channels wait on a stream. -/
def unsent (q v size at_ : Nat) (s : State) : Bool :=
  (tget [] s.link.ready v).any fun f => !(dropRecords size at_ (homedIn q s) 16 (f.bytes.drop (if f.fh then 64 else 0))).2.isEmpty

/-- A draining quarter has nothing left: queues empty, engines idle, every group of its slice released and sent (R420). -/
def drained (q : Nat) (s : State) : Bool :=
  (upto (16 * q) 16).all (fun k => (engine s k).queue.isEmpty && (engine s k).cur.isNone)
    && !(s.eng.echoes.any fun x => homedIn q s x.ch) && !(s.eng.raws.any fun x => homedIn q s x.ch)
    && !(s.eng.cands.any fun p => homedIn q s p.2.1) && !unsent q 0 16 9 s && !unsent q 1 64 15 s

/-- Engine quarter `q` goes off, whatever remains. -/
def quarterOff (q : Nat) (s : State) : State :=
  let gone := homedIn q s
  let ks := upto (16 * q) 16
  let tasks := ks.flatMap fun k => (engine s k).queue ++ (engine s k).cur.toList
  let s1 := dropStream 1 64 15 gone (dropStream 0 16 9 gone s)
  let s2 := each ks (fun k => modEngine k fun e => { Engine.reset with retired := e.retired }) s1
  let s3 := each tasks drainTask { s2 with pwr := { s2.pwr with on := remNat s2.pwr.on (10 + q), coming := remNat s2.pwr.coming (10 + q), draining := remNat s2.pwr.draining (10 + q) } }
  let s4 := noteFull { s3 with eng := { s3.eng with stores := tdel s3.eng.stores q } }
  if (List.range 4).any (quarterUp s4) then s4 else lastSlice s4

/-- D9 goes off: DEVTIME is lost, outputs go low, the ring stops (R54, R87, R403, R404, R420). -/
def timeOff (s : State) : State :=
  let s0 := finishToken s
  let s1 := calDomainOff 8 (clearFronts (upto 256 4) (ringDown s0))
  { s1 with
    sys := { s1.sys with devtimeHeld := devtime s, timeSet := none, tsAt := 0 }
    fire := { Fire.reset with faultInh := s1.fire.faultInh, nextSid := s1.fire.nextSid, frame := s1.fire.frame, lfsr := s1.fire.lfsr }
    zone := Zone.reset
    samp := { s1.samp with reqs := [], wins := [], conv := none, gateReqs := [], calReqs := [] }
    eng := { s1.eng with startQ := [] }
    casc := { s1.casc with events := [], tsWait := none } }

/-- D18 goes off (R16, R420). -/
def hkOff (s : State) : State :=
  tempHoldNow (each (List.range 9) (fun g => modCalGrp g fun x => { x with fresh := false }) (hkPowerDown s))

/-- An axis whose domain was off: OFF, with the AXFAULT of a LASTING source kept (R253, R453). -/
def axisOff (s : State) (x : Nat) : Axis := { Axis.reset with axFault := isLasting s 4 x }

/-- An axis at D19's power-up: the PWM counter starts at its valley. -/
def axisOn (s : State) (x : Nat) : Axis := { axisOff s x with reloadAt := s.sys.cyc }

/-- D19 goes off: the HKC's PWM wait ends (R215, R420). -/
def steerOff (s : State) : State :=
  let s1 := { s with axA := axisOff s 0, axB := axisOff s 1 }
  pwmGone s1

/-- A domain other than a quarter goes off. -/
def domainOff (d : Nat) (s : State) : State :=
  if 10 ≤ d ∧ d ≤ 13 then quarterOff (d - 10) s
  else
    let t := if d = 9 then timeOff s else s
    let s1 := { t with pwr := { t.pwr with on := remNat t.pwr.on d, coming := remNat t.pwr.coming d } }
    if 1 ≤ d ∧ d ≤ 8 then bankOff (d - 1) s1
    else if d = 14 then stkPowerOff s1
    else if d = 15 ∨ d = 16 then linkDomainOff d s1
    else if d = 17 then archDomainOff s1
    else if d = 18 then hkOff s1
    else if d = 19 then steerOff { s1 with fire := { s1.fire with angA := coreAngle s 0, angB := coreAngle s 1 } }
    else s1

/-! ### Domains coming up (R419) -/

/-- One retirement on a sampler with every segment at its own place (R75). -/
def retireInit (x : SampCh) (k : Nat) : SampCh :=
  if x.pool.contains k then dropSpare { x with pool := remNat x.pool k } k
  else match (List.range 64).find? fun p => tget p x.ring p == k with
    | some p => (match x.redun, x.pool with
      | n :: r, _ => relinkRedun x p k n r
      | [], n :: _ => relinkSpare x p k n
      | [], [] => x)
    | none => { x with redun := remNat x.redun k, retired := x.retired ++ [k] }

/-- A channel's ring and pool with its retired segments replaced. The spec does not give the layout after a power-up: the model
forms the reset layout anew and replays the retirements in their order, a ring position taking the first spare where no
redundant segment is left (DESIGN CHOICE, log entry 133). -/
def sampInit (x : SampCh) : SampCh := (x.retired ++ x.toRetire).foldl retireInit SampCh.reset

/-- The samplers of a group start (R76). -/
def sampUp (g : Nat) (s : State) : State := each (groupChans g) (fun c => modSampCh c sampInit) s

/-- A bank is up: starting ranges, DCR settling, histories clear, grey estimates and a run start (R37, R41, R76, R141,
R147, R179). -/
def bankUp (b : Nat) (s : State) : State :=
  let s1 := each (groupChans b) (fun c s =>
    let s1 := modFront c (fun x => { frontAtRest x with range := startRange (rd s) c, settleAt := s.sys.now + 10000000 }) s
    greyRestart (rd s) c (modEngCh c (fun x => { x with hist := [] }) s1)) (sampUp b s)
  autoRun b (autoPhases (rd s1)) s1

/-- D9 is up: DEVTIME starts at 0, and the start inputs' DC restoration settles as a bank's does (R37, R57, R95, R419). -/
def timeUp (s : State) : State :=
  let s1 := { s with
    sys := { s.sys with cyc := 0 }
    pwr := { s.pwr with refLost := false }
    fire := { s.fire with dwellBits := binBits (rd s), dwellEnd := s.sys.now + subLength (rd s), speedAt := s.sys.now + 5000 } }
  let s2 := each (List.range 4) (fun i => modFront (256 + i) fun _ => { Front.reset with range := sinRange (rd s) i, settleAt := s.sys.now + 10000000 }) (sampUp 8 s1)
  autoRun 8 (autoPhases (rd s2)) s2

/-- Quarter `q`'s banks as a power-up loads them (R128; log entry 128): ACTIVE from the image, or what the powered quarter `j`
holds. -/
def bankLoad (q : Nat) (j : Option Nat) (s : State) : Tab (List Byte × List Byte) :=
  tset ([], []) s.eng.stores q (match j with | some j => tget ([], []) s.eng.stores j | none => (partBytes s s.upd.running 1 32768, []))

/-- A quarter is up: engines at rest with the image's microcode in ACTIVE, which another powered quarter holds already, so
that it joins the next swap as the others do; after a time with no quarter every channel's GAP is pending (R108, R128). -/
def quarterOn (q : Nat) (s : State) : State :=
  match (List.range 4).find? fun j => j != q && quarterUp s j with
  | some j => { s with eng := { s.eng with stores := bankLoad q (some j) s } }
  | none => { s with eng := { s.eng with
    mcActive := partVersion s s.upd.running 1 % 2 ^ 16
    stores := bankLoad q none s
    chs := tmodAll EngCh.reset s.eng.chs (List.range 256) fun _ x => { x with gapPend := true } } }

/-- What a domain's coming up starts. -/
def domainOn (d : Nat) (s : State) : State :=
  if d = 9 then timeUp s
  else if 1 ≤ d ∧ d ≤ 8 then bankUp (d - 1) s
  else if 10 ≤ d ∧ d ≤ 13 then quarterOn (d - 10) s
  else if d = 14 then stkPowerOn s
  else if d = 15 ∨ d = 16 then linkPower s
  else if d = 17 then archDomainUp s
  else if d = 18 then fillReads (hkPowerUp s)
  else if d = 19 then { s with axA := axisOn s 0, axB := axisOn s 1 }
  else s

/-! ### POWER (R22, R409, R418) -/

def offOrder : List Nat := [19, 18, 17, 16, 15, 14, 13, 12, 11, 10, 8, 7, 6, 5, 4, 3, 2, 1, 9]
def onOrder : List Nat := [9, 1, 2, 3, 4, 5, 6, 7, 8, 10, 11, 12, 13, 14, 15, 16, 17, 18, 19]

/-- Domains that depend on D9 (01, power domains). -/
def needsTime (d : Nat) : Bool := (decide (1 ≤ d) && decide (d ≤ 8)) || (decide (10 ≤ d) && decide (d ≤ 14)) || d == 19

/-- A set of domains is refused. -/
def powerDenied (s : State) (set : List Nat) : Bool :=
  let r := rd s
  let has := fun d => set.contains d
  let goesOn := fun d => has d && !domOn s d
  let goesOff := fun d => !has d && domOn s d
  !has 0 || (set.any fun d => needsTime d && !has 9)
    || ((goesOn 15 || goesOn 16) && !s.pwr.vsl) || (goesOn 17 && !s.pwr.vap) || (goesOn 18 && !s.pwr.vhk)
    || (goesOff 9 && !(s.sys.devState == .idle || s.sys.devState == .safe))
    || (goesOff 19 && (s.axA.mode != .off || s.axB.mode != .off))
    || (goesOff 19 && (s.sys.devState == .armed || s.sys.devState == .run || s.sys.devState == .hold) && (schedPos r || frameMode r == 0))
    || (goesOn 9 && !s.pwr.refPresent)

/-- The request in hand is answered when its last domain is up or off. -/
def powerDone (s : State) : State :=
  match s.pwr.req with
  | some (q, set) =>
    if s.pwr.steps = [] ∧ s.pwr.draining = [] ∧ set.all (domUp s) then
      settle (replyTo 0x21 q 0 [wd (maskOf s.pwr.on)] { s with pwr := { s.pwr with req := none } })
    else s
  | none => s

/-- POWER. -/
def execPower (q : Req) (s : State) : Out :=
  .next (serve 0x21 true (decide (q.payload.length = 1)) (fun q s =>
    let set := bitsSet 20 0 (fld (qw q 0) 19 0)
    if powerDenied s set then replyTo 0x21 q 10 [] s
    else
      let off := (offOrder.filter fun d => domOn s d && !set.contains d).map fun d => (d, false)
      let on := (onOrder.filter fun d => !domOn s d && set.contains d).map fun d => (d, true)
      if off ++ on = [] ∧ set.all (domUp s) then replyTo 0x21 q 0 [wd (maskOf s.pwr.on)] s
      else { s with pwr := { s.pwr with steps := off ++ on, req := some (q, set), nextAt := s.sys.now } }) q s)

/-- The switching after this one comes STAGGER µs later (R418). -/
def nextSwitch (s : State) : State := { s with pwr := { s.pwr with nextAt := s.sys.now + ns (1000 * stagger (rd s)) } }

/-- A quarter starts to drain, for at most HORIZON + 5 µs (R420). -/
def startDrain (d : Nat) (s : State) : State :=
  { s with pwr := { s.pwr with
    draining := addNew s.pwr.draining d
    drainBy := tset 0 s.pwr.drainBy d (s.sys.now + ns (1000 * (horizon (rd s) + 5))) } }

/-- A domain is switched. -/
def switchOne (d : Nat) (on : Bool) (s : State) : State :=
  if on then { s with pwr := { s.pwr with on := sortBy (fun (n : Nat) => (n : Int)) (addNew s.pwr.on d), coming := addNew s.pwr.coming d } }
  else if 10 ≤ d ∧ d ≤ 13 ∧ domUp s d ∧ devRuns s then startDrain d s
  else powerDone (domainOff d s)

/-- DOMAIN_SWITCH_STEP: the next switching of the request; a quarter drains first, and D9 waits for the drains (R418, R420). -/
def execDomainSwitchStep (s0 : State) : Out :=
  .next (match s0.pwr.steps with
    | [] => s0
    | p :: r =>
      if p.1 = 9 ∧ ¬ p.2 ∧ s0.pwr.draining ≠ [] then s0
      else switchOne p.1 p.2 (nextSwitch (let s := advNow s0.pwr.nextAt s0; { s with pwr := { s.pwr with steps := r } })))

/-- DOMAIN_UP: a domain that was switched on is up; D9 before those that need it. -/
def execDomainUp (d : Nat) (s : State) : Out :=
  guardObj (decide (d < 20)) (if s.pwr.coming.contains d ∧ ¬ (needsTime d ∧ ¬ domUp s 9) ∧ ¬ (d = 9 ∧ ¬ s.pwr.refPresent) then
      powerDone (domainOn d { s with pwr := { s.pwr with coming := remNat s.pwr.coming d } })
    else s)

/-- QUARTER_DRAIN_END: nothing is left, or the bound is reached (R420). -/
def execQuarterDrainEnd (qt : Nat) (s : State) : Out :=
  guardObj (decide (qt < 4)) (if s.pwr.draining.contains (10 + qt) then
    powerDone (quarterOff qt (if drained qt s then s else advNow (tget 0 s.pwr.drainBy (10 + qt)) s)) else s)

/-! ### Clocks and rails (R20, R415-R417) -/

/-- Loss of REFCLK or of the PLL's lock: pulses end at once, REF_LOST, SAFE (R20, R88, R101). -/
def referenceLost (s : State) : State :=
  if ¬ domUp s 9 ∨ s.pwr.refLost then s
  else
    let s1 := each (List.range 16) (fun e => modEmit e fun m => { m with high := false }) { s with pwr := { s.pwr with refLost := true } }
    let f := takeFree 32 s1
    logNote 8 4 0 (protective 8 0 f.1 f.2)

/-- REFERENCE_LOST. -/
def execReferenceLost (s : State) : Out := .next (referenceLost s)

/-- PLL_LOCK_TIMEOUT: D9 and what depends on it go off again; a protective fault; DENIED (R418). -/
def execPllLockTimeout (s : State) : Out :=
  .next (if ¬ s.pwr.coming.contains 9 then s
    else
      let gone := offOrder.filter fun d => domOn s d && (needsTime d || d == 9)
      let s1 := each gone domainOff s
      let s2 := { s1 with pwr := { s1.pwr with refLost := true, steps := [], req := none } }
      let f := takeFree 32 s2
      let s3 := logNote 8 4 0 (protective 8 0 f.1 f.2)
      match s.pwr.req with
      | some (q, _) => settle (replyTo 0x21 q 10 [] s3)
      | none => s3)

/-- The HKC leaves the crystal: the conversion in progress ends STALE, the next is a change (R417). -/
def xtalLost (s : State) : State :=
  let s1 := { s with hk := { s.hk with onInt := true, change := true, xtalBack := false } }
  if s.hk.phase == .converting then
    let t := hkStale false false false s1
    fillReads (nextRepeat false { t with hk := { t.hk with change := true } })
  else s1

/-- CLOCK_LOST: each monitor runs only while a domain that uses its clock is on (R415). -/
def execClockLost (c : Clk) (s : State) : Out :=
  .next (match c with
    | .refclk => referenceLost { s with pwr := { s.pwr with refPresent := false } }
    | .lrefclk =>
      let s1 := { s with pwr := { s.pwr with lrefPresent := false } }
      if (domOn s 15 || domOn s 16) && !s.pwr.lrefLost then
        logNote 0x12 4 0 (linkClockLost { s1 with pwr := { s1.pwr with lrefLost := true } })
      else s1
    | .aprefclk =>
      let s1 := { s with pwr := { s.pwr with aprefPresent := false } }
      if domOn s 17 && !s.pwr.aprefLost then logNote 0x12 4 1 (archLinkLost { s1 with pwr := { s1.pwr with aprefLost := true } })
      else s1
    | .hkxtal =>
      let s1 := { s with pwr := { s.pwr with hkxPresent := false } }
      if domOn s 18 && !oscInt (rd s) && !s.pwr.hkxLost then
        logNote 0x12 4 2 (xtalLost { s1 with pwr := { s1.pwr with hkxLost := true } })
      else s1)

/-- CLOCK_RESTORED: present for 10 ms; the reference's flag waits for D9 (R415, R417). -/
def execClockRestored (c : Clk) (s : State) : Out :=
  .next (match c with
    | .refclk => { s with pwr := { s.pwr with refPresent := true } }
    | .lrefclk => { s with pwr := { s.pwr with lrefPresent := true, lrefLost := false } }
    | .aprefclk => { s with pwr := { s.pwr with aprefPresent := true, aprefLost := false } }
    | .hkxtal =>
      let s1 := { s with pwr := { s.pwr with hkxPresent := true, hkxLost := false } }
      if domOn s 18 && !oscInt (rd s) && s.hk.onInt then
        (if s.hk.phase == .converting then { s1 with hk := { s1.hk with xtalBack := true } }
         else takeXtal { s1 with hk := { s1.hk with xtalBack := true } })
      else s1)

/-- RAIL_FLAG_UPDATE (R409, R421). -/
def execRailFlagUpdate (vsl vap vhk : Bool) (s : State) : Out :=
  .next (if s.sys.resetLow ∨ s.sys.porLow then s else { s with pwr := { s.pwr with vsl := vsl, vap := vap, vhk := vhk } })

end Sys2Proof.Machine
end

