-- ==== Sys2Proof/Machine/Boot.lean ====
section
/-!
DEFINITION. The boot header's records (R428, R429), manifests and their checks (R423-R426, R433), loading the calibration
store (R196, R439) and the supervisor's restart (R434-R438).
-/

namespace Sys2Proof.Machine

/-! ### Boot header (R428, R429) -/

/-- Offset of a record slot of a copy. -/
def bootOff (copy n : Nat) : Nat := 0x80000 * copy + 256 * n

/-- Trial slot of its byte. -/
def trialOf (b : Nat) : Option Nat := if b = 0xFF then none else some (b % 2)

/-- A record, if the 256 bytes at an offset hold a valid one. -/
def readBoot (m : Tab Byte) (a : Nat) : Option BootRec :=
  let b := flashRead m a 256
  let n := fun (i k : Nat) => ofLe ((b.drop i).take k)
  if n 0 4 = 0x5C0FB0C1 ∧ n 252 4 = 0xA55AC3E2 ∧ n 248 4 = crc32c (b.take 248) then
    some { seq := n 8 4, rdmode := n 12 1, active := n 13 1 % 2, trial := trialOf (n 14 1), trials := n 15 1, stA := n 16 1,
           stB := n 17 1, cascade := decide (n 18 1 % 2 = 1), reason := n 19 1, confirmS := n 20 2 }
  else none

/-- A record's bytes. -/
def bootBytes (r : BootRec) : List Byte :=
  let b := padTo 248 (leBytes 4 0x5C0FB0C1 ++ leBytes 4 0x00010000 ++ leBytes 4 r.seq ++ leBytes 1 r.rdmode ++ leBytes 1 r.active
    ++ leBytes 1 (r.trial.getD 0xFF) ++ leBytes 1 r.trials ++ leBytes 1 r.stA ++ leBytes 1 r.stB ++ leBytes 1 (b2n r.cascade)
    ++ leBytes 1 r.reason ++ leBytes 2 r.confirmS)
  b ++ leBytes 4 (crc32c b) ++ leBytes 4 0xA55AC3E2

/-- Record slots of a copy in which some byte is not erased. -/
def bootSlots (m : Tab Byte) (copy : Nat) : List Nat :=
  ((m.filter fun p => decide (0x80000 * copy ≤ p.1) && decide (p.1 < 0x80000 * (copy + 1))).map fun p => (p.1 - 0x80000 * copy) / 256).eraseDups

/-- Newest valid record of a copy. -/
def newestIn (m : Tab Byte) (copy : Nat) : Option BootRec :=
  (bootSlots m copy).foldl (fun best n =>
    match readBoot m (bootOff copy n), best with
    | some r, some b => if b.seq < r.seq then some r else best
    | some r, none => some r
    | none, _ => best) none

/-- What governs without a valid record (R429). -/
def bootDefault : BootRec :=
  { seq := 0, rdmode := 1, active := 0, trial := none, trials := 0, stA := 3, stB := 3, cascade := false, reason := 0, confirmS := 0 }

/-- The newest valid record in either copy. -/
def newestBoot (m : Tab Byte) : Option BootRec :=
  match newestIn m 0, newestIn m 1 with
  | some a, some b => if a.seq < b.seq then some b else some a
  | some a, none => some a
  | none, b => b

/-- The record that governs. -/
def bootRec (s : State) : BootRec := (newestBoot s.flash.bytes).getD bootDefault

/-- A copy region is erased: 8 erases of 64 KiB. -/
def eraseCopy (copy : Nat) (s : State) : State :=
  { s with flash := { s.flash with bytes := flashErase (0x80000 * copy) 0x80000 s.flash.bytes, erases := wrapAdd 32 s.flash.erases 8 } }

/-- A record programmed at a position of a copy, its COMMIT as a program of its own. -/
def progRec (copy n : Nat) (b : List Byte) (s : State) : State :=
  { s with flash := { s.flash with bytes := flashProg (bootOff copy n) b s.flash.bytes, progs := wrapAdd 32 s.flash.progs 2 } }

/-- A new record: in the next erased slot of copy 0, then at the same position of copy 1; a copy without an erased slot
there is erased first, the other one holding the newest record (R429). -/
def writeRec (f : BootRec → BootRec) (s : State) : State :=
  if ¬ s.flash.used then s
  else
    let b := bootBytes { f (bootRec s) with seq := wrapAdd 32 (bootRec s).seq 1 }
    let n := (bootSlots s.flash.bytes 0).foldl (fun n k => max n (k + 1)) 0
    let s1 := if 2048 ≤ n then eraseCopy 0 s else s
    let pos := if 2048 ≤ n then 0 else n
    let s2 := progRec 0 pos b s1
    progRec 1 pos b (if (bootSlots s2.flash.bytes 1).contains pos then eraseCopy 1 s2 else s2)

/-- State of a slot set in a record: 0 EMPTY, 1 INCOMPLETE, 2 LOADED, 3 GOOD, 4 REJECTED. -/
def setSlot (slot st : Nat) (r : BootRec) : BootRec := if slot = 0 then { r with stA := st } else { r with stB := st }
def slotState (r : BootRec) (slot : Nat) : Nat := if slot = 0 then r.stA else r.stB

/-- The slot that is not running. -/
def inactive (s : State) : Nat := if s.upd.running = 0 then 1 else 0

/-! ### Manifests (R423-R426, R433) -/

def manLen (s : State) (slot : Nat) : Nat := manNum s slot 8 4
def manSvn (s : State) (slot : Nat) : Nat := manNum s slot 16 1
def manCascade (s : State) (slot : Nat) : Bool := decide (manNum s slot 18 1 % 2 = 1)

/-- Step 1: MAGIC, FORMAT, LEN and TOTAL. -/
def manShape (s : State) (slot : Nat) : Bool :=
  let n := manParts s slot
  decide (manNum s slot 0 4 = 0x5C0F4D31) && decide (manNum s slot 4 4 = 0x00010000) && decide (4 ≤ n) && decide (n ≤ 32)
    && decide (manLen s slot = 160 + 64 * n) && decide (manNum s slot 12 4 ≤ 0x800000)

/-- First four bytes of the manifest's SHA-384, byte 0 lowest; 0 where the slot holds no manifest (R448). -/
def manTag (s : State) (slot : Nat) : Nat :=
  if manShape s slot then ofLe ((sha384 (flashRead s.flash.bytes (slotOff slot) (manLen s slot))).take 4) else 0

/-- Step 4: one descriptor of each type, of this device and its silicon revision, which the model fixes as B1 (R3, R320; log
entry 127). -/
def partsFit (s : State) (slot : Nat) : Bool :=
  (List.range 4).all fun typ => match partsOf s slot typ with
    | [p] => manNum s slot (66 + 64 * p) 2 == 0x0256 && manNum s slot (68 + 64 * p) 2 == 0x3142
    | _ => false

/-- Step 4: every part names a programmed key. -/
def keysFit (s : State) (slot : Nat) : Bool :=
  (List.range 4).all fun typ => (partsOf s slot typ).all fun p =>
    decide (manNum s slot (70 + 64 * p) 1 < 4) && Config.keyProgrammed (manNum s slot (70 + 64 * p) 1)

/-- Steps 1 to 4, the signature's outcome given: the reason code of the first failure, 0 where none fails. -/
def manifestCheck (s : State) (slot : Nat) (sigOk : Bool) : Nat :=
  if ¬ manShape s slot then 1 else if ¬ sigOk then 2 else if manSvn s slot < s.upd.counter then 3
  else if ¬ partsFit s slot then 4 else if ¬ keysFit s slot then 5 else 0

/-- Steps 1 to 5. -/
def fullCheck (s : State) (slot : Nat) (sigOk tagOk : Bool) : Nat :=
  let r := manifestCheck s slot sigOk
  if r = 0 ∧ ¬ tagOk then 6 else r

/-- Bytes per 0.1 s of a read mode (R412). -/
def readRate (rdmode : Nat) : Nat := 312500 * 2 ^ (rdmode / 4 % 4) * (if rdmode % 4 = 2 then 4 else 1)

/-- RDMODE a slot's image runs with: its manifest's, or the present one. -/
def slotRdmode (s : State) (slot : Nat) : Nat := if manNum s slot 19 1 = 0 then (bootRec s).rdmode else manNum s slot 19 1

/-- The SUP part is too long for the activation pause (R432). -/
def supTooLong (s : State) (slot : Nat) : Bool :=
  match partsOf s slot 0 with | p :: _ => decide (readRate (slotRdmode s slot) < manNum s slot (80 + 64 * p) 4) | [] => false

/-- Raise the anti-rollback counter to a slot's SVN (R426). -/
def raiseCounter (slot : Nat) (s : State) : State := { s with upd := { s.upd with counter := max s.upd.counter (manSvn s slot % 64) } }

/-- A cascade trial runs on this device. -/
def onTrial (s : State) : Bool :=
  let r := bootRec s
  r.cascade && r.trial == some s.upd.running

/-- The confirmation timer starts: CONFIRM_S, and 10 s more on a slave (R443). -/
def startTimer (s : State) : State :=
  if ¬ onTrial s ∨ s.upd.timer then s
  else
    let n := (if (bootRec s).confirmS = 0 then 60 else (bootRec s).confirmS) + (if isMaster s then 0 else 10)
    { s with upd := { s.upd with timer := true, confirmLeft := s.sys.now + 5000000000 * n } }

/-! ### Corrections at a start (R196, R439) -/

/-- A set of a record's entry. -/
def readSet (m : Tab Byte) (a : Nat) : TSet :=
  { t := sgn 16 (flashNum m a 2), d := sgn 16 (flashNum m (a + 2) 2), g0 := flashNum m (a + 4) 2, g1 := flashNum m (a + 6) 2,
    g2 := flashNum m (a + 8) 2, ped := flashNum m (a + 10) 2 }

/-- A channel's retired segments of a record's entry, those that redundant segments replace first. -/
def readRetired (m : Tab Byte) (a : Nat) : List Nat :=
  let repl := ((List.range 4).map fun i => flashNum m (a + 19 + i) 1).filter fun k => decide (k < 84)
  (repl ++ bitsSet 84 0 (flashNum m (a + 8) 11)).eraseDups

/-- Factory defaults of a channel (R196). -/
def factoryChan (c : Nat) (x : CalCh) : CalCh :=
  { x with
    sets := [⟨200, if c < 256 then Config.otpDelay c else Config.otpDelayST (c - 256), 0x4000, 0x4000, 0x4000, 1024⟩]
    single := none
    rsel := (List.range 3).map fun a => Config.otpRsel c a % 16
    defWait := true }

def factoryRetired (c : Nat) : List Nat := ((Config.otpRetired c).filter fun k => decide (k < 84)).eraseDups

/-- A channel's values from its entry at `a`. -/
def storedChan (m : Tab Byte) (a : Nat) (x : CalCh) : CalCh :=
  let w := flashNum m (a + 4) 2
  { x with
    sets := (List.range (clampN 1 8 (flashNum m (a + 2) 1))).map fun k => readSet m (a + 32 + 16 * k)
    single := none
    rsel := [w % 16, w / 16 % 16, w / 256 % 16]
    stuckLow := decide (flashNum m (a + 3) 1 % 2 = 1)
    retireBlk := decide (flashNum m (a + 3) 1 / 2 % 2 = 1)
    defWait := false }

/-- A sampler with other retirements: its ring and pool are formed anew from them (R75). -/
def setRetired (l : List Nat) (x : SampCh) : SampCh :=
  if x.retired ++ x.toRetire = l then x
  else
    let y := sampInit { SampCh.reset with retired := l }
    { x with ring := y.ring, pool := y.pool, redun := y.redun, repl := y.repl, retired := y.retired, toRetire := [], poolSize := y.poolSize }

/-- The newest readable record's values, or the factory defaults, become every channel's; in a warm start each applied value
moves to them by the slew of R193. -/
def loadCal (warm : Bool) (s : State) : State :=
  let m := s.flash.bytes
  let rec_ := if s.flash.used then newestOwn m else none
  let s1 := { s with cal := { s.cal with defaults := rec_.isNone, storedSeq := (rec_.getD (0, 0)).2, unsaved := [] } }
  each (List.range 260) (fun c s =>
    let t := grpTemp s (groupOf c)
    let a := rec_.map fun p => frameOff p.1 + 64 + 160 * c
    let old := calCh s c
    let new := match a with | some a => storedChan m a old | none => factoryChan c old
    let s2 := if warm then s
      else modSampCh c (setRetired (match a with | some a => readRetired m a | none => factoryRetired c)) s
    modCalCh c (fun _ => if warm then reSlew true t old new else evalChan t new) s2) s1

/-- Held states as they stand while no frames run. -/
def refreshAll (s : State) : State := if running s then s else each (List.range 9) refreshHeld s

/-! ### Restart (R436-R438, R449) -/

/-- Calibration runs are abandoned; test ranges in hand go back to the range in force. -/
def dropRuns (s : State) : State :=
  let gs := (List.range 9).filter (grpRunning s)
  let s1 := each (List.range 260) (fun c s =>
    match (calCh s c).testR with
    | some r => modFront c (fun y => { y with range := r }) (modCalCh c (fun y => { y with testR := none }) s)
    | none => s) s
  let s2 := each gs (fun g => modCalGrp g fun x => { x with phase := 0, tStart := none, tEnd := none, ending := false, readRes := 0, armed := false }) s1
  { s2 with cal := { s2.cal with again := s2.cal.again ++ gs, storing := none, storeBusy := false, storeData := [] } }

/-- The supervisor restarts: RDY falls, what it was interpreting gets no reply, runs and a store in progress are dropped;
the domains go on (R418, R437). `choice`: through the boot choice of R434, else the running image starts again. -/
def supRestart (choice : Bool) (s : State) : State :=
  let mute := fun (a : Axis) => { a with pendMode := a.pendMode.map fun m => { m with req := none } }
  let s1 := dropRuns s
  { s1 with
    sys := { s1.sys with rdy := false, timeSet := none, tsAt := 0 }
    axA := mute s1.axA
    axB := mute s1.axB
    pwr := { s1.pwr with req := none, steps := [] }
    link := { s1.link with laneReq := none }
    casc := { s1.casc with enumReq := none, tsWait := none, fwd := [], updWait := [] }
    flash := { s1.flash with page := none, op := s1.flash.op.map fun o => { o with user := 0 } }
    upd := { s1.upd with act := if choice then 4 else 5, warm := true, stage := if s1.upd.stage = 1 then 0 else s1.upd.stage, confirmReq := none, download := false, ending := false, staging := [] } }

/-- Entry to RECOVERY: the ROM service runs (R444). -/
def enterRecovery (slot : Nat) (s : State) : State :=
  let held := match s.sys.devState with
    | .boot | .recovery => s.sys.resume
    | d => some d
  setDev .recovery
    { s with
      sys := { s.sys with resume := held, rdy := true }
      upd := { s.upd with act := 0, running := 7, recovSlot := slot, stage := 7 } }

/-- RECOVERY is left for BOOT with a slot made ACTIVE (R445, R446). -/
def leaveRecovery (slot : Nat) (s : State) : State :=
  let s1 := writeRec (fun r => { r with active := slot, trial := none }) s
  setDev .boot { s1 with sys := { s1.sys with rdy := false }, upd := { s1.upd with act := 4, warm := true } }

end Sys2Proof.Machine
end

