-- ==== Sys2Proof/Machine/Update.lean ====
section
/-!
DEFINITION. Firmware update (R430-R448): download, activation alone and in a cascade, confirmation, fallback and
RECOVERY's choice; and the acknowledgements of a cascade's slaves (R397, R441, R442).
-/

namespace Sys2Proof.Machine

/-- STAGE where nothing is under way: by the inactive slot's state and the running trial (R448). -/
def restStage (s : State) : Nat :=
  if s.sys.devState = .recovery then 7 else if onTrial s then 4 else if slotState (bootRec s) (inactive s) = 2 then 2 else 0

/-- An update stage has ended with a reason. -/
def updFail (reason : Nat) (s : State) : State := { s with upd := { s.upd with reason := reason, act := 0, stage := restStage s, actMaster := false } }

/-! ### Download (R430-R432, R445) -/

/-- Slot that a download fills. -/
def dlSlot (s : State) : Nat := if s.sys.devState = .recovery then s.upd.recovSlot else inactive s

/-- UPD_BEGIN. -/
def updBegin (q : Req) (s : State) : State :=
  let w0 := (qw q 0).toNat
  let w1 := (qw q 1).toNat
  let casc := bit (qw q 2) 0
  let recov := s.sys.devState == .recovery
  if 0x800000 < w1 ∨ w0 < 416 ∨ 2208 < w0 ∨ (w0 - 160) % 64 ≠ 0 ∨ w1 < w0 then replyTo 0x60 q 8 [] s
  else if ¬ recov ∧ (s.upd.act ≠ 0 ∨ (bootRec s).trial.isSome) then replyTo 0x60 q 1 [] s
  else if (if recov then casc else casc != s.sys.cascRole) then replyTo 0x60 q 10 [] s
  else
    let slot := dlSlot s
    let s1 := writeRec (setSlot slot 1) { s with flash := { s.flash with op := s.flash.op.map fun o => if o.user = 2 ∨ o.user = 3 then { o with user := 0 } else o } }
    flashNext (replyTo 0x60 q 0 [] { s1 with upd := { s1.upd with
      stage := if recov then 7 else 1, count := 0, total := w1, staging := [], programmed := 0, erased := 0, download := true,
      ending := false, bad := !s.flash.used, slot := slot } })

/-- UPD_DATA. -/
def updData (q : Req) (s : State) : State :=
  let off := (qw q 0).toNat
  let data := bytesOf (q.payload.drop 1)
  if ¬ s.upd.download ∨ s.upd.ending then replyTo 0x61 q 7 [] s
  else if off % 4 ≠ 0 ∨ s.upd.count < off ∨ s.upd.total < off + data.length then replyTo 0x61 q 8 [] s
  else
    let new := (data.drop (s.upd.count - off)).take (65536 - s.upd.staging.length)
    let n := s.upd.count + new.length
    flashNext (replyTo 0x61 q 0 [wd n] { s with upd := { s.upd with count := n, staging := s.upd.staging ++ new } })

/-- UPD_END: the signature is checked before the reply. -/
def updEnd (sigOk : Bool) (q : Req) (s : State) : State :=
  if ¬ s.upd.download ∨ s.upd.ending ∨ s.upd.count ≠ s.upd.total then replyTo 0x62 q 7 [] s
  else if ¬ sigOk then
    let s1 := writeRec (fun r => { setSlot s.upd.slot 4 r with reason := 2 }) s
    let s2 := { s1 with upd := { s1.upd with reason := 2, download := false, staging := [] }, sys := { s1.sys with badCrc := satAdd 16 s1.sys.badCrc 1 } }
    replyTo 0x62 q 4 [] { s2 with upd := { s2.upd with stage := restStage s2 } }
  else flashNext (replyTo 0x62 q 12 [] { s with upd := { s.upd with ending := true } })

/-- The drained image's manifest check: the reason of a rejection, 0 for LOADED. -/
def endCheck (s : State) : Nat :=
  if s.upd.bad then 8
  else
    let r := manifestCheck s s.upd.slot true
    if r ≠ 0 then r else if supTooLong s s.upd.slot then 7 else 0

/-- UPD_END_COMPLETE. -/
def execUpdEndComplete (s : State) : Out :=
  .next (if ¬ s.upd.download ∨ ¬ s.upd.ending ∨ s.upd.staging ≠ [] ∨ s.upd.erased < 0x800000 ∨ s.flash.op.isSome then
      (if s.upd.download ∧ s.upd.ending ∧ ¬ s.flash.used then
        irq 10 { s with upd := { s.upd with reason := 8, download := false, ending := false, staging := [], stage := restStage s } }
      else s)
    else
      let r := endCheck s
      let slot := s.upd.slot
      let s1 := writeRec (fun b => if r = 0 then setSlot slot 2 b else { setSlot slot 4 b with reason := r }) (loadRanges slot s)
      let s2 := { s1 with upd := { s1.upd with reason := if r = 0 then s1.upd.reason else r, download := false, ending := false } }
      let s3 := irq 10 { s2 with upd := { s2.upd with stage := restStage s2 } }
      if s.sys.devState = .recovery ∧ r = 0 then leaveRecovery slot s3 else s3)

/-- UPD_ERASE_STEP: 64 KiB of the download's slot are erased. -/
def execUpdEraseStep (s : State) : Out :=
  .next (if (match s.flash.op with | some o => o.user == 3 | none => false) then opEnd true true s else s)

/-! ### Activation (R435, R436, R441) -/

/-- COMMIT_PEND (R340). -/
def commitPend (s : State) : Bool := setWaits s || s.cfg.fixedId.isSome || !s.cfg.fixedBlocks.isEmpty

/-- The record that puts the inactive slot on trial. -/
def pendRecord (s : State) : State :=
  let slot := inactive s
  writeRec (fun r => { r with trial := some slot, trials := 0, cascade := manCascade s slot, confirmS := manNum s slot 20 2, rdmode := slotRdmode s slot }) s

/-- The master's GO: every device restarts, and its own timer starts. -/
def sendGo (s : State) : State :=
  let s1 := ringSend .go { s with upd := { s.upd with act := 4 } }
  let r := bootRec s1
  let n := if r.confirmS = 0 then 60 else r.confirmS
  supRestart true { s1 with upd := { s1.upd with timer := true, confirmLeft := s1.sys.now + 5000000000 * n } }

/-- All full checks are in at the master: PENDING records are ordered, or no device proceeds. -/
def masterGoOn (s : State) : State :=
  if s.casc.updWait ≠ [] then s
  else if ¬ s.casc.updOk then irq 10 (updFail 10 s)
  else
    let s1 := pendRecord { s with upd := { s.upd with act := 2 } }
    let s2 := ringSend (.updOrder 2) { s1 with casc := { s1.casc with updWait := others s1 } }
    if others s1 = [] then sendGo s2 else s2

/-- Slaves that the master knows to hold another manifest: their tags reach it over the ring, so a free value. -/
def slavesDiffer (s : State) : Bool × State :=
  if others s = [] then (false, s) else let f := takeFree 1 s; (decide (f.1 = 1), f.2)

/-- An order of the master to a slave: 1 the full check, 2 the PENDING record. -/
def activateOrder (s : State) : State :=
  if s.upd.act = 0 then
    (if slotState (bootRec s) (inactive s) = 2 then { s with upd := { s.upd with act := 1, actMaster := false, stage := 3 } }
     else ringSend (.ack (devIdx s) (.fullCheck false)) s)
  else if s.upd.act = 2 then
    let s1 := pendRecord s
    ringSend (.ack (devIdx s) .pendingRecord) { s1 with upd := { s1.upd with act := 3 } }
  else s

/-- UPD_ACTIVATE. -/
def updActivate (q : Req) (s : State) : State :=
  if isOrder q s then activateOrder s
  else if slotState (bootRec s) (inactive s) ≠ 2 ∨ commitPend s ∨ s.sys.statePend then replyTo 0x63 q 7 [] s
  else if isSlave s ∨ (s.sys.cascRole ∧ q.dest.toNat % 16 = 15) then replyTo 0x63 q 10 [] s
  else if ¬ isMaster s then replyTo 0x63 q 12 [] { s with upd := { s.upd with act := 1, stage := 3 } }
  else
    let d := slavesDiffer s
    if d.1 then replyTo 0x63 q 13 [] d.2
    else
      let s1 := replyTo 0x63 q 12 [] { d.2 with upd := { d.2.upd with act := 1, actMaster := true, stage := 3 } }
      ringSend (.updOrder 1) { s1 with casc := { s1.casc with updWait := devIdx s1 :: others s1, updOk := true } }

/-- ACTIVATION_CHECK_DONE. -/
def execActivationCheckDone (sigOk tagOk : Bool) (s : State) : Out :=
  .next (if s.upd.act ≠ 1 ∨ (s.upd.actMaster ∧ ¬ s.casc.updWait.contains (devIdx s)) then s
    else
      let slot := inactive s
      let r := fullCheck s slot sigOk tagOk
      let s1 := if r = 0 then s else writeRec (fun b => { setSlot slot 4 b with reason := r }) s
      if s.upd.actMaster then
        masterGoOn { s1 with casc := { s1.casc with updWait := remNat s1.casc.updWait (devIdx s), updOk := s1.casc.updOk && decide (r = 0) } }
      else if isSlave s then
        ringSend (.ack (devIdx s) (.fullCheck (decide (r = 0)))) (if r = 0 then { s1 with upd := { s1.upd with act := 2 } } else updFail r s1)
      else if r = 0 then
        let s2 := pendRecord s1
        { s2 with upd := { s2.upd with act := 6 } }
      else irq 10 (updFail r s1))

/-- CASCADE_CHECK_TIMEOUT: no device proceeds. -/
def execCascadeCheckTimeout (s : State) : Out :=
  .next (if s.upd.actMaster ∧ s.upd.act = 1 ∧ s.casc.updWait ≠ [] then irq 10 (updFail 10 { s with casc := { s.casc with updWait := [] } })
    else if isSlave s ∧ (s.upd.act = 1 ∨ s.upd.act = 2) then updFail s.upd.reason s
    else s)

/-- SUPERVISOR_RESTART: into the boot choice, once the PENDING record has committed. -/
def execSupervisorRestart (s : State) : Out := .next (if s.upd.act = 6 then supRestart true s else s)

/-- GO: a slave passes it on and restarts into the trial. -/
def execGo (s : State) : Out :=
  .next (if ¬ isSlave s ∨ ¬ domUp s 9 then s
    else
      let s1 := ringSend .go s
      if s1.upd.act = 3 then supRestart true s1 else s1)

/-- GO_TIMEOUT: no GO, or at the master no acknowledgement, within 100 ms: the trial is off. -/
def execGoTimeout (s : State) : Out :=
  .next (if s.upd.act = 3 ∨ (s.upd.actMaster ∧ s.upd.act = 2) then
      irq 10 (updFail 9 (writeRec (fun r => { r with trial := none }) { s with casc := { s.casc with updWait := [] } }))
    else s)

/-! ### Confirmation and fallback (R442, R443) -/

/-- The trial is confirmed on this device. -/
def confirmOwn (s : State) : State :=
  let slot := s.upd.running
  let s1 := writeRec (fun r => { setSlot slot 3 r with active := slot, trial := none }) s
  irq 10 (raiseCounter slot { s1 with upd := { s1.upd with timer := false, confirmLeft := 0, stage := 5 } })

/-- A device falls back: its trial slot is REJECTED, the ring hears of it, and the supervisor restarts into ACTIVE. -/
def fallBack (reason : Nat) (s : State) : State :=
  let slot := s.upd.running
  let s1 := ringSend .fallbackOrder (writeRec (fun r => { setSlot slot 4 r with trial := none, reason := reason }) s)
  supRestart true { s1 with upd := { s1.upd with timer := false, confirmLeft := 0, stage := 6, reason := reason } }

/-- UPD_CONFIRM; the master's orders to a slave: w0 = 0 asks for its outcome, 1 confirms. -/
def updConfirm (q : Req) (s : State) : State :=
  if isOrder q s then
    (if qw q 0 = 0 then ringSend (.ack (devIdx s) (.confirm (onTrial s && decide (s.upd.act = 0)))) s
     else if onTrial s then confirmOwn s else s)
  else if ¬ isMaster s ∨ ¬ onTrial s then replyTo 0x64 q 7 [] s
  else if others s = [] then replyTo 0x64 q 0 [] (confirmOwn s)
  else if ¬ s.casc.ringUp then replyTo 0x64 q 13 [] s
  else ringSend (.updOrder 3) { s with upd := { s.upd with confirmReq := some q }, casc := { s.casc with updWait := others s, updOk := true } }

/-- Every device has answered the confirmation. -/
def confirmGoOn (s : State) : State :=
  match s.upd.confirmReq with
  | some q =>
    if s.casc.updWait ≠ [] then s
    else
      let s1 := { s with upd := { s.upd with confirmReq := none } }
      if s.casc.updOk then settle (replyTo 0x64 q 0 [] (confirmOwn (ringSend (.updOrder 4) s1)))
      else fallBack 10 (replyTo 0x64 q 13 [] s1)
  | none => s

/-- CONFIRM_TIMER_EXPIRY, at the timer's end. -/
def execConfirmTimerExpiry (s : State) : Out := .next (if s.upd.timer ∧ onTrial s ∧ s.upd.act = 0 then fallBack 9 (advNow s.upd.confirmLeft s) else s)

/-- FALLBACK: an order or an announcement; the master orders the rest. -/
def execFallback (s : State) : Out :=
  .next (if ¬ s.sys.cascRole then s
    else if onTrial s ∧ (s.upd.act = 0 ∨ s.upd.act = 5) then fallBack 10 s
    else if isMaster s then ringSend .fallbackOrder s
    else s)

/-- ACK. -/
def execAck (sender : Nat) (kind : AckKind) (crcOk : Bool) (s : State) : Out :=
  ringIn crcOk (fun s =>
    if ¬ isMaster s then (if sender = devIdx s then s else ringSend (.ack sender kind) s)
    else
      let took := { s with casc := { s.casc with updWait := remNat s.casc.updWait sender } }
      match kind with
      | .timeSet => ackTimeSet sender s
      | .fullCheck ok =>
        if s.upd.act = 1 ∧ s.upd.actMaster ∧ s.casc.updWait.contains sender then
          masterGoOn { took with casc := { took.casc with updOk := took.casc.updOk && ok } }
        else s
      | .pendingRecord =>
        if s.upd.act = 2 ∧ s.upd.actMaster ∧ s.casc.updWait.contains sender then (if took.casc.updWait = [] then sendGo took else took) else s
      | .confirm ok =>
        if s.upd.confirmReq.isSome ∧ s.casc.updWait.contains sender then confirmGoOn { took with casc := { took.casc with updOk := took.casc.updOk && ok } }
        else s) s

/-! ### RECOVER_SELECT, UPD_STATUS (R445, R448) -/

/-- RECOVER_SELECT. -/
def recoverSelect (q : Req) (s : State) : State :=
  let slot := fld (qw q 0) 0 0
  let st := slotState (bootRec s) slot
  if st = 2 ∨ st = 3 then leaveRecovery slot (replyTo 0x66 q 0 [] s) else replyTo 0x66 q 8 [] s

/-- Seconds left on the confirmation timer. -/
def confirmSecs (s : State) : Nat := if s.upd.timer then (s.upd.confirmLeft - s.sys.now + 4999999999) / 5000000000 else 0

/-- The words of UPD_STATUS. -/
def updWords (s : State) : List Word :=
  let r := bootRec s
  let u := s.upd
  [wd (put u.stage 3 29 + put u.reason 5 24 + put (b2n s.sys.cascRole) 1 23 + put r.trials 3 20 + put u.running 3 16),
   wd (put r.stA 4 28 + put r.stB 4 24 + put u.counter 8 16 + put (if manShape s (inactive s) then manSvn s (inactive s) else 0) 8 8),
   wd u.count, wd (put (confirmSecs s) 16 0), wd (put s.cfg.fmtReset 31 0),
   wd (if u.running = 7 then 0 else manTag s u.running), wd (manTag s (inactive s))]

/-! ### Meanings of the packets -/

def execUpdBegin (q : Req) (s : State) : Out := .next (serve 0x60 true (decide (q.payload.length = 3)) updBegin q s)
def execUpdData (q : Req) (s : State) : Out :=
  .next (serve 0x61 true (decide (2 ≤ q.payload.length) && decide (q.payload.length ≤ 1024)) updData q s)
def execUpdEnd (q : Req) (sigOk : Bool) (s : State) : Out := .next (serve 0x62 true (decide (q.payload.length = 0)) (updEnd sigOk) q s)
def execUpdActivate (q : Req) (s : State) : Out := .next (serve 0x63 true (decide (q.payload.length = 0)) updActivate q s)
def execUpdConfirm (q : Req) (s : State) : Out := .next (serve 0x64 true (decide (q.payload.length = 0)) updConfirm q s)
def execUpdStatus (q : Req) (s : State) : Out :=
  .next (serve 0x65 false (decide (q.payload.length = 0)) (fun q s => replyTo 0x65 q 0 (updWords s) s) q s)
def execRecoverSelect (q : Req) (s : State) : Out := .next (serve 0x66 true (decide (q.payload.length = 1)) recoverSelect q s)

end Sys2Proof.Machine
end

