-- ==== Sys2Proof/Machine/FlashCmd.lean ====
section
/-!
DEFINITION. The flash port's own events (R303-R308), and the calibration's commands that use the store (R180, R196,
R459).
-/

namespace Sys2Proof.Machine

/-- PAGE_BUFFER_FLUSH: the run is programmed; a busy port makes it wait (R305). -/
def execPageBufferFlush (s : State) : Out :=
  .next (match s.flash.page, s.flash.op with
    | some (a, b), none => startProg a b 1 { s with flash := { s.flash with page := none } }
    | _, _ => s)

/-- FLASH_STATUS_POLL: one status read; at completion the read-back or blank check (R306). -/
def execFlashStatusPoll (done good : Bool) (s : State) : Out := .next (if done then opEnd true good s else s)

/-- FLASH_OP_TIMEOUT: the soft reset takes its time, or 1 ms, and addressing and read mode are as before (R302, R306). -/
def execFlashOpTimeout (s : State) : Out :=
  .next (match s.flash.op with
    | some o => opEnd false false (advNow (o.since + opLimit s.flash.table o + 5000 * s.flash.table.resetUs.getD 1000) s)
    | none => s)

/-- FLASH_ERASE_REGISTER: an aligned offset, 4 KiB or 64 KiB (R307). A busy port makes the write wait. -/
def execFlashEraseRegister (off : Nat) (size64 : Bool) (s : State) : Out :=
  guardObj (decide (off < 2 ^ 26) && decide (off % 4096 = 0)) (if ¬ s.flash.used ∨ s.flash.op.isSome then s
    else if flashProtected off then { s with flash := { s.flash with wprot := satAdd 8 s.flash.wprot 1 } }
    else if flashTop s ≤ off then s
    else startErase off (if size64 then 0x10000 else 0x1000) 0 s)

/-- WINDOW_READ_SUSPEND: a window read flushes the page buffer; during an operation it is served by suspend and resume
where declared, else it waits for the end (R305, R308). -/
def execWindowReadSuspend (off : Nat) (s : State) : Out :=
  guardObj (decide (off < 2 ^ 26)) (match s.flash.op, s.flash.page with
    | some _, _ => if s.flash.table.susp then s else { s with flash := { s.flash with waitRead := true } }
    | none, some (a, b) =>
      let s1 := startProg a b 1 { s with flash := { s.flash with page := none } }
      if s.flash.table.susp then s1 else { s1 with flash := { s1.flash with waitRead := true } }
    | none, none => s)

/-- BOOT_HEADER_ERASE: a full copy, while the other one holds the newest valid record (R429). -/
def execBootHeaderErase (copy : Nat) (s : State) : Out :=
  guardObj (decide (copy < 2)) (
    let m := s.flash.bytes
    let full := (bootSlots m copy).contains 2047
    let kept : Bool := match newestBoot m, newestIn m (1 - copy) with | some a, some b => decide (a.seq = b.seq) | _, _ => false
    if s.flash.used && full && kept && s.flash.op.isNone then eraseCopy copy s else s)

/-! ### Microcode (R128, R422) -/

/-- The supervisor writes SLATE in every powered quarter from the ENG part of the running image, and marks it ready. -/
def writeSlate (s : State) : State :=
  let up := (List.range 4).filter (quarterUp s)
  let b := partBytes s s.upd.running 1 32768
  { s with eng := { s.eng with
    mcSlate := if up = [] then 0 else partVersion s s.upd.running 1 % 2 ^ 16, slateReady := true
    stores := up.foldl (fun t q => tmod ([], []) t q fun p => (p.1, b)) s.eng.stores } }

/-- SLATE_MARK_READY (R128): the supervisor of a running image writes SLATE from the image's ENG part, of version `ver`; not
while older work runs from that bank (R25).
Where no frames run the banks swap at once (R422). -/
def execSlateMarkReady (ver : Nat) (s : State) : Out :=
  .next (if ¬ s.sys.rdy ∨ s.upd.running = 7 ∨ oldBankBusy s ∨ ver ≠ partVersion s s.upd.running 1 then s
    else
      let s1 := writeSlate s
      if running s then s1 else microSwap s1)

/-! ### Calibration commands -/

/-- CAL_STORE_INTERVAL: 15 minutes after a store; results that wait are stored (R459). -/
def execCalStoreInterval (s : State) : Out :=
  .next (if s.cal.interval then flashNext (storeBegin { s with cal := { s.cal with interval := false } }) else s)

/-- RESET of R180: the own records go, every value is the factory's, retired segments return to service. -/
def calReset (s : State) : State :=
  let own := (List.range 8).filter fun k => match frameRec s.flash.bytes k with | some p => p.1 == 1 | none => false
  let s1 := each own (fun k s => { s with flash := { s.flash with
    bytes := flashErase (frameOff k) 0x10000 s.flash.bytes, erases := wrapAdd 32 s.flash.erases 1 } }) s
  let s2 := { s1 with
    cal := { s1.cal with defaults := true, storing := none, storeBusy := false, storeData := [], unsaved := [], storedSeq := 0 }
    flash := { s1.flash with page := none, op := s1.flash.op.map fun o => if o.user = 1 then { o with user := 0 } else o } }
  refreshAll (each (List.range 260) (fun c s =>
    let s3 := modSampCh c (setRetired (factoryRetired c)) s
    modCalCh c (fun x =>
      let y := factoryChan c CalCh.reset
      evalChan (grpTemp s (groupOf c))
        { y with needGain := x.needGain || decide (y.rsel ≠ x.rsel), held := x.held, stuckLow := x.stuckLow,
                 pedRes := x.pedRes, widthRes := x.widthRes, gainRes := x.gainRes, zeroRes := x.zeroRes }) s3) s2)

/-- CAL_START (R180). -/
def calStart (q : Req) (s : State) : State :=
  let w := qw q 0
  let gs := bitsSet 9 0 (fld w 8 0)
  if bit w 13 ∧ s.sys.devState ≠ .idle then replyTo 0x30 q 7 [] s
  else if gs.any (grpRunning s) then replyTo 0x30 q 1 [] s
  else if gs.any fun g => !domUp s (grpDom g) then replyTo 0x30 q 10 [] s
  else replyTo 0x30 q 0 [] (each gs (fun g => startRun g (fld w 12 9) true) (if bit w 13 then calReset s else s))

def execCalStart (q : Req) (s : State) : Out := .next (serve 0x30 true (decide (q.payload.length = 1)) calStart q s)

/-- CAL_STORE_LOAD: a cold start ends in IDLE with RDY set (R196, R412, R413). -/
def execCalStoreLoad (s : State) : Out :=
  .next (if s.sys.devState ≠ .boot ∨ s.upd.act ≠ 5 ∨ s.sys.resume.isSome then s
    else
      let s1 := startTimer (microSwap (writeSlate (refreshAll (loadCal false s))))
      setDev .idle { s1 with sys := { s1.sys with rdy := true, tempHold := s1.sys.tempHold || !domUp s1 18 }, upd := { s1.upd with act := 0, warm := false } })

end Sys2Proof.Machine
end

