-- ==== Sys2Proof/Machine/System.lean ====
section
/-!
DEFINITION. Reset and start (R408-R413), the boot choice (R434), and the supervisor's warm start (R437-R439, R446,
R449).
-/

namespace Sys2Proof.Machine

/-- Reset: every RAM-held value is cleared; flash and OTP stay, bytes of an operation cut short excepted. The clocks and
rails at the pins are not the device's. -/
def coldReset (s : State) : State :=
  let s1 := match s.flash.op with
    | some o => flashScatter (if o.erase = 0 then o.data.length else min o.erase (flashTop s - o.off)) o.off s
    | none => s
  { State.reset with
    pending := s.pending
    sys := { Sys.reset with free := s1.sys.free, resetLow := s.sys.resetLow, porLow := s.sys.porLow,
                            cascRole := s.sys.cascRole, cascId := s.sys.cascId, bootSrc := s.sys.bootSrc }
    flash := { Flash.reset with bytes := s1.flash.bytes, table := s.flash.table }
    pwr := { Pwr.reset with refPresent := s.pwr.refPresent, lrefPresent := s.pwr.lrefPresent, aprefPresent := s.pwr.aprefPresent,
                            hkxPresent := s.pwr.hkxPresent }
    upd := { Upd.reset with counter := s.upd.counter }
    flt := { Flt.reset with log := s.flt.log, logPos := s.flt.logPos, logSeq := s.flt.logSeq } }

/-- RESETN_ASSERT (R410). -/
def execResetnAssert (s : State) : Out :=
  let t := coldReset s
  .next { t with sys := { t.sys with resetLow := true } }

/-- POWER_ON_RESET: as if RESETn were low (R408). -/
def execPowerOnReset (s : State) : Out :=
  let t := coldReset s
  .next { t with sys := { t.sys with porLow := true } }

/-- The boot ROM starts: flash discovery (R301, R302, R412). -/
def bootBegin (s : State) : State :=
  if s.sys.resetLow ∨ s.sys.porLow then s
  else
    let ok := flashAccepted s.flash.table
    { s with
      flash := { s.flash with used := ok, mode := b2n ok, addr4 := ok && decide (24 < s.flash.table.dens) }
      upd := { s.upd with act := 4, warm := false } }

/-- RESETN_RELEASE: the straps are sampled (R12, R411). -/
def execResetnRelease (role : Bool) (id : Nat) (bootSrc : Bool) (tbl : FlashTable) (s : State) : Out :=
  guardObj (decide (id < 8)) (if ¬ s.sys.resetLow then s
    else bootBegin { s with
      sys := { s.sys with resetLow := false, cascRole := role, cascId := id, bootSrc := bootSrc }
      flash := { s.flash with table := tbl } })

/-- POWER_ON_RESET_RELEASE. -/
def execPowerOnResetRelease (s : State) : Out :=
  .next (if s.sys.porLow then bootBegin { s with sys := { s.sys with porLow := false } } else s)

/-- The slot to start and the outcome of its check; a cascade's trial that fails falls back (R434). -/
def chooseSlot (chk : State → Nat → Nat) (s : State) : Nat × Nat × State :=
  let h := bootRec s
  match h.trial with
  | none => (h.active, chk s h.active, s)
  | some t =>
    if h.cascade ∧ 3 ≤ h.trials then
      let s1 := writeRec (fun r => { setSlot t 4 r with trial := none, reason := 11 }) s
      (h.active, chk s1 h.active, { s1 with upd := { s1.upd with stage := 6, reason := 11 } })
    else
      let s1 := writeRec (fun r => { r with trials := min 3 (r.trials + 1) }) s
      let e := chk s1 t
      if e ≠ 0 ∧ h.cascade then
        let s2 := ringSend .fallbackOrder (writeRec (fun r => { setSlot t 4 r with trial := none, reason := e }) s1)
        (h.active, chk s2 h.active, { s2 with upd := { s2.upd with stage := 6, reason := e, timer := false, confirmLeft := 0 } })
      else (t, e, s1)

/-- The SUP part of a slot starts: its version, the parts to come, and what R426 and R434 record. -/
def startImage (slot : Nat) (s : State) : State :=
  let h := bootRec s
  let s1 := { s with upd := { s.upd with running := slot, act := 5, actMaster := false, versSup := partVersion s slot 0,
                                         versNext := some (partVersion s slot 1, partVersion s slot 2, partVersion s slot 3) } }
  if h.trial = some slot ∧ ¬ h.cascade then
    let s2 := writeRec (fun r => { setSlot slot 3 r with active := slot, trial := none }) s1
    raiseCounter slot { s2 with upd := { s2.upd with stage := 5 } }
  else if h.trial = some slot then { s1 with upd := { s1.upd with stage := 4 } }
  else
    let s2 := if slot = h.active then raiseCounter slot s1 else s1
    if s2.upd.stage = 6 then s2 else { s2 with upd := { s2.upd with stage := if slotState h (inactive s2) = 2 then 2 else 0 } }

/-- Read mode and clock of the boot header; for 1-4-4 quad enable is set first, by the declared method (R302). -/
def readMode (s : State) : State :=
  let h := bootRec s
  let quad := decide (h.rdmode % 4 = 2)
  { s with flash := { s.flash with mode := if quad then 2 else 1, clk := h.rdmode / 4 % 4, quad := s.flash.quad || quad } }

/-- BOOT_VERIFY_COMPLETE: the outcomes of the signature and tag steps for each slot. -/
def execBootVerifyComplete (sigA tagA sigB tagB : Bool) (s : State) : Out :=
  .next (if s.upd.act ≠ 4 then s
    else if ¬ s.upd.warm ∧ ¬ s.sys.bootSrc then enterRecovery 0 s
    else if ¬ s.flash.used then enterRecovery (bootRec s).active s
    else
      let chk := fun (s : State) (slot : Nat) => if slot = 0 then fullCheck s 0 sigA tagA else fullCheck s 1 sigB tagB
      let s0 := loadRanges 1 (loadRanges 0 (readMode s))
      let s1 := { s0 with upd := { s0.upd with reason := (bootRec s0).reason } }
      let c := chooseSlot chk s1
      if c.2.1 = 0 then startImage c.1 c.2.2
      else
        let s2 := c.2.2
        enterRecovery c.1 { s2 with upd := { s2.upd with reason := c.2.1 } })

/-- Runs that the restart abandoned start again; their holds end, at the first boundary or at once (R197). -/
def resumeCal (s : State) : State :=
  let s1 := each s.cal.again (fun g s =>
    let x := calGrp s g
    modCalGrp g (fun y => { y with hold := x.hold && running s }) (startRun g x.phases x.cmd s)) { s with cal := { s.cal with again := [] } }
  refreshAll s1

/-- WARM_START: the new supervisor resumes the held state and raises RDY; STATE and UPD are set; with no frames running
the other parts enter service at once (R422, R436, R438, R439, R446). -/
def execWarmStart (s : State) : Out :=
  .next (if s.upd.act ≠ 5 ∨ (s.sys.devState = .boot ∧ s.sys.resume.isNone) then s
    else
      let s1 := resumeCal (loadCal true s)
      let s2 := match s1.sys.devState, s1.sys.resume with
        | .boot, some d => { s1 with sys := { s1.sys with devState := d, resume := none } }
        | _, _ => s1
      let s3 := irq 10 (irq 2 { s2 with sys := { s2.sys with rdy := true }, upd := { s2.upd with act := 0, warm := false } })
      settle (startTimer (if running s3 ∨ oldBankBusy s3 then s3 else microSwap (writeSlate s3))))

/-- LOCKSTEP_MISMATCH: an event of source 0x09, and the running image starts again (R449); in RECOVERY the ROM service
does. An activation that has not begun its restart is lost, a PENDING record withdrawn. -/
def execLockstepMismatch (s : State) : Out :=
  .next (if s.sys.resetLow ∨ s.sys.porLow then s
    else
      let s1 := raiseOpen 9 0 s
      if s.sys.devState = .recovery ∨ s.upd.act = 4 ∨ s.upd.act = 5 ∨ s.upd.act = 6 then
        (if s.upd.act = 6 then supRestart true s1 else s1)
      else
        let s2 := if s.upd.act = 3 ∨ (s.upd.act = 2 ∧ s.upd.actMaster) then writeRec (fun r => { r with trial := none }) s1 else s1
        let s3 := if s.upd.act = 0 then s2 else updFail s.upd.reason s2
        supRestart false s3)

end Sys2Proof.Machine
end

