-- ==== Sys2Proof/Machine/Status.lean ====
section
/-!
DEFINITION. The status blocks 0xE0-0xEF and the status words of POWER and FAULT as they read, and what reading clears
(R8-R10, R62, R86, R107, R135, R145, R176, R199, R231, R232, R252, R280, R309, R340, R365, R391, R406, R421, R460).
-/

namespace Sys2Proof.Machine

/-- A field's value at its low bit, cut to its width. -/
abbrev bf (v hi lo : Nat) : Nat := put v (hi - lo + 1) lo

/-- A flag at a bit. -/
def fl (b : Bool) (n : Nat) : Nat := put (b2n b) 1 n

/-- A signed field. -/
def bfI (v : Int) (hi lo : Nat) : Nat := put (usgn (hi - lo + 1) v) (hi - lo + 1) lo

/-! ### Words -/

/-- DEVSTAT (R340). -/
def devstatWord (s : State) (n : Nat) : Nat :=
  let dt := if domUp s 9 then devtime s else s.sys.devtimeHeld
  if n = 1 then bf (stateCode s.sys.devState) 31 29 + fl s.sys.tempHold 28 + fl (fltBit s) 27 + fl (commitPend s) 26
    + fl s.sys.statePend 25 + bf s.sys.stateTarget 24 22
  else if n = 2 then bf s.sys.commitId 31 16 + bf s.sys.appliedId 15 0
  else if n = 3 then maskOf s.pwr.on
  else if n = 4 then s.sys.frameNo
  else if n = 5 then dt % 2 ^ 32
  else if n = 6 then dt / 2 ^ 32
  else if n = 7 then bf s.sys.deferCnt 31 16 + bf s.sys.forcedCnt 15 0
  else bf s.sys.badCrc 31 16 + bf s.sys.badOpc 15 8 + bf s.sys.formatCnt 7 0

/-- FRONTSTAT (R62). -/
def frontWord (s : State) (n : Nat) : Nat :=
  let c := n - 1
  let x := front s c
  if ¬ domUp s (inputDom c) then 0
  else bf x.dcr 31 20 + fl x.dcrLim 19 + fl (x.stuckMask && decide (c < 256)) 18 + fl (x.pend.isSome && decide (c < 256)) 17
    + bf x.shown 15 14 + bf x.satCnt 13 0

/-- SAMPSTAT (R86). -/
def sampWord (s : State) (n : Nat) : Nat :=
  let c := (n - 1) / 3
  let x := sampCh s c
  if ¬ domUp s (inputDom c) then 0
  else if (n - 1) % 3 = 0 then bf x.parkOvf 31 16 + (if c < 256 then bf x.gateOvf 15 0 else 0)
  else if (n - 1) % 3 = 1 then (if c < 256 then bf x.lateMiss 31 16 else 0) + bf x.parkAdj 15 8 + bf x.calOvf 7 0
  else bf x.poolSize 31 27 + bf (wif x) 26 23 + bf x.redun.length 22 20 + bf x.retired.length 19 15

/-- FIRESTAT (R107). -/
def fireWord (s : State) (n : Nat) : Nat :=
  let m := emit s ((n - 2) / 2)
  if ¬ domUp s 9 then 0
  else if n = 1 then fl s.fire.velInh 31 + fl s.fire.faultInh 30 + bf s.fire.subSkip 15 0
  else if n % 2 = 0 then m.fired
  else bf m.withheld 31 24 + bf m.posSkip 23 16 + bf m.startMiss 15 8 + bf m.startSat 7 0

/-- ENGSTAT (R135). -/
def engWord (s : State) (n : Nat) : Nat :=
  if n = 1 then bf s.eng.mcActive 31 16 + (if s.eng.slateReady then bf s.eng.mcSlate 15 0 else 0)
  else if n = 2 then fullCount s
  else if n = 3 then 0
  else if n < 68 then
    (let e := engine s (n - 4)
     if engineUp s (n - 4) then bf e.queue.length 31 25 + fl e.retired 24 + bf e.eccCorr 23 16 + bf e.eccUnc 15 8 else 0)
  else if n < 132 then (if engineUp s (n - 68) then (engine s (n - 68)).stolen else 0)
  else
    let x := engCh s (n - 132)
    if quarterUp s ((n - 132) / 64) then bf x.shed 31 16 + bf x.late 15 8 + bf x.eccDrop 7 0 else 0

/-- GREYSTAT (R145). -/
def greyWord (s : State) (n : Nat) : Nat := (grey s (n - 1)).word

/-- STACKSTAT (R176). -/
def stackWord (s : State) (n : Nat) : Nat :=
  let k := s.stk
  if ¬ domUp s 14 then 0
  else if n = 1 then fl k.sweep 31 + bf k.setsHeld 30 19
  else if n = 2 then k.histMiss
  else if n = 3 then k.stkDone
  else if n = 4 then bf k.stkMiss 31 16 + bf k.stkDisc 15 0
  else if n = 5 then bf k.stMismatch 31 16 + bf k.stDrop 15 0
  else waitCount s

/-- CALSTAT (R199). Group 8 has no GAIN phase: SIN0-SIN3 read SKIPPED. -/
def calWord (s : State) (n : Nat) : Nat :=
  if n = 1 then fl s.cal.defaults 31 + fl s.cal.storeBusy 30 + fl s.cal.storeErr 29
    + bf (maskOf ((List.range 9).filter (grpRunning s))) 28 20 + bf s.cal.storedSeq 19 0
  else if n < 11 then
    let x := calGrp s (n - 2)
    bf x.phase 31 29 + fl x.tempHold 28 + fl x.noTemp 27 + bfI x.tLast 26 16 + bf x.runs 15 8
  else
    let c := n - 11
    let x := calCh s c
    bf x.pedRes 31 30 + bf x.widthRes 29 28 + bf (if c < 256 then x.gainRes else 3) 27 26 + bf x.zeroRes 25 24 + fl x.held 23
      + fl x.stuckLow 22 + fl x.retireBlk 21 + bf x.sets.length 20 17

/-- HKSTAT (R231): BUF_OVR and HKBUF_WR read while D18 is off too. -/
def hkWord (s : State) (n : Nat) : Nat :=
  let h := s.hk
  let on := domUp s 18
  if n = 1 then
    (if on then fl h.refInt 31 + fl h.refExt 30 + fl h.refSup 29 + fl h.pwmAbsent 28 + fl h.uncal 27 + fl h.selfBusy 26 + fl h.bgBusy 25
      + bf h.bgGain 23 21 + bf (injCount s) 20 18 + bf h.entry 17 12 else 0) + fl h.bufOvr 24 + bf h.wr 11 0
  else if ¬ on then 0
  else if n = 2 then h.passes
  else if n = 3 then bf h.settleCnt 31 16 + bf h.blankedCnt 15 0
  else if n = 4 then bf h.abortCnt 31 16 + bf h.timerMiss 15 8 + bf h.refFail 7 0
  else bf h.blankAbort 31 16

/-- HKCAL (R232). -/
def hkcalWord (s : State) (n : Nat) : Nat :=
  if ¬ domUp s 18 then 0
  else if n < 17 then
    let f := hkFactors s ((n - 1) / 2)
    if n % 2 = 1 then usgn 32 f.1 else bf f.2 31 8
  else
    let l := hkSets s (n - 17)
    bfI ((l.map HkSet.t).headD 0) 31 21 + bf l.length 20 18

/-- EXCSTAT (R252). -/
def excWord (s : State) (n : Nat) : Nat :=
  let h := s.hk
  if ¬ domUp s 18 then 0
  else if n = 1 then bf h.openCnt 31 16 + bf h.shortCnt 15 0
  else if n = 2 then bf h.boOpen 31 16 + bf (maskOf h.biasHold) 15 12 + bf (maskOf (h.src.map fun p => p.1)) 11 8
  else bf (tget 0 h.biasOut (n - 3)) 31 20

/-- STEERSTAT (R280). -/
def steerWord (s : State) (n : Nat) : Nat :=
  let x := (n - 1) / 6
  let a := axis s x
  let k := (n - 1) % 6
  if ¬ domUp s 19 then 0
  else if k = 0 then bf (axModeCode a.mode) 31 29 + fl a.faultActive 28 + fl a.axFault 27 + fl (homedOf (rd s) x a) 26 + fl a.moveDone 25
    + fl (blendVal a.rhoP != 0 || blendVal a.rhoV != 0) 24 + fl a.isatV 23 + fl a.isatP 22 + fl a.osat 21 + bf a.cause 20 18
  else if k = 1 then usgn 32 (presentedP (rd s) x a s.sys.cyc)
  else if k = 2 then bf (angleNow s x) 31 8
  else if k = 3 then usgn 32 a.vel
  else if k = 4 then usgn 32 a.ferr
  else bf a.encErr 31 16 + bf a.feCnt 15 8 + bf a.fltCnt 7 0

/-- PORTSTAT (R309). -/
def portWord (s : State) (n : Nat) : Nat :=
  let p := s.port
  let f := s.flash
  if n = 1 then bf p.cmdExtra 31 16 + bf p.cmdShort 15 8 + bf p.cmdBadact 7 0
  else if n = 2 then bf p.cmdNrdy 31 16 + bf p.cmdRefused 15 8 + bf p.cmdBadhdr 7 0
  else if n = 3 then bf p.cmdTimeout 31 24 + bf p.telShort 23 16 + bf p.telColl 15 8
  else if n = 4 then bf p.telNrdy 31 16 + bf p.telRepeat 15 0
  else if n = 5 then bf f.mode 31 30 + fl f.addr4 29 + fl (f.used && f.table.susp) 28 + bf f.clk 27 26 + bf (if f.used then f.table.dens else 0) 25 20
  else if n = 6 then bf f.timeouts 31 24 + bf f.verify 23 16 + bf f.wprot 15 8
  else if n = 7 then f.progs
  else f.erases

def linkCode (l : LinkState) : Nat :=
  match l with
  | .off => 0 | .detect => 1 | .train => 2 | .align => 3 | .up => 4 | .down => 5

/-- Lanes that satisfy `p`, as a mask. -/
def laneMask (s : State) (p : Lane → Bool) : Nat := maskOf ((List.range 8).filter fun k => p (lane s k))

/-- LINKSTAT (R365): fields of a direction whose domain is off read 0. -/
def linkWord (s : State) (n : Nat) : Nat :=
  let l := s.link
  let tx := fun (v : Nat) => if domUp s 15 then v else 0
  let rx := fun (v : Nat) => if domUp s 16 then v else 0
  if n = 1 then bf (linkCode l.st) 31 29 + tx (bf (maskOf l.txUse) 28 21) + bf (laneMask s fun x => x.degraded) 20 13
  else if n = 2 then tx (bf (laneMask s fun x => x.txState != 0) 31 24) + rx (bf (laneMask s fun x => x.rxState == 1) 23 16
    + bf (laneMask s fun x => decide (2 ≤ x.rxState)) 15 8 + bf (laneMask s fun x => x.lock) 7 0)
  else if n = 3 then bf l.trainTo 31 16 + bf l.retries 15 0
  else if n = 4 then tx l.framesTx
  else if n = 5 then rx (bf l.credErr 31 24) + tx (bf l.teleSkip 23 16) + rx (bf l.rxDrop 15 0)
  else if n % 2 = 0 then rx (bf (lane s ((n - 6) / 2)).rxCrc 31 16 + bf (lane s ((n - 6) / 2)).rxSync 15 0)
  else tx (bf (lane s ((n - 6) / 2)).txRpt 31 16)

/-- ARCHSTAT (R391): MOUNT_RES reads while D17 is off too. -/
def archWord (s : State) (n : Nat) : Nat :=
  let a := s.arch
  let on := domUp s 17
  if n = 1 then bf a.mountRes 31 28 + (if on then fl a.mounted 27 + fl a.suspended 26 + fl a.wearStop 25 + fl a.budgetHold 24
    + bf (maskOf a.running) 23 20 + bf a.gen 19 17 + bf a.width 16 15 + fl a.l0sTx 14 + fl a.l0sRx 13 else 0)
  else if ¬ on then 0
  else if n = 2 then bf a.pct 31 24 + bf a.crit 23 16 + bf a.dir.length 15 8
  else if n = 3 then a.e
  else if n = 4 then a.ckSeq
  else if n = 5 then bf a.writeErr 31 16 + bf a.timeouts 15 0
  else if n = 6 then a.dropWave
  else if n = 7 then a.dropEcho
  else if n = 8 then a.dropHist
  else if n = 9 then wearSum s / 2 ^ 20
  else a.budgetDrop

/-- CASCSTAT (R406). -/
def cascWord (s : State) (n : Nat) : Nat :=
  let c := s.casc
  if ¬ domUp s 9 then 0
  else if n = 1 then bf (if isMaster s then 1 else if isSlave s then 2 else 0) 31 30 + fl c.enumOk 29 + fl c.aligned 28 + fl c.ringUp 27
    + bf c.breakAt 26 24 + bf c.present.length 23 20 + bf (maskOf c.present) 19 12
  else if n = 2 then bf c.ringLoss 31 16 + bf c.syncErr 15 8 + bf c.fwdTo 7 0
  else bf c.crcErr 31 16

/-- Word `n` of a status block. -/
def statusWord (s : State) (id n : Nat) : Word :=
  if n = 0 then formatWord
  else wd (if id = 0xE0 then devstatWord s n else if id = 0xE1 then frontWord s n else if id = 0xE2 then sampWord s n
    else if id = 0xE3 then fireWord s n else if id = 0xE4 then engWord s n else if id = 0xE5 then greyWord s n
    else if id = 0xE6 then stackWord s n else if id = 0xE7 then calWord s n else if id = 0xE8 then hkWord s n
    else if id = 0xE9 then hkcalWord s n else if id = 0xEA then excWord s n else if id = 0xEB then steerWord s n
    else if id = 0xEC then portWord s n else if id = 0xED then linkWord s n else if id = 0xEE then archWord s n else cascWord s n)

/-- POWER word 2 (R421). -/
def powerWord (s : State) : Word :=
  let p := s.pwr
  wd (fl p.refLost 31 + fl p.lrefLost 30 + fl p.aprefLost 29 + fl p.hkxLost 28 + fl (domOn s 18 && s.hk.onInt) 27
    + fl p.vsl 26 + fl p.vap 25 + fl p.vhk 24)

/-- LASTING instances `lo` to `lo + n - 1` of a source as a mask. -/
def lastMask (s : State) (src lo n : Nat) : Nat := maskOf ((List.range n).filter fun i => isLasting s src (lo + i))

/-- FAULT words 10-22 (R460). -/
def faultStatus (s : State) (n : Nat) : Word :=
  wd (if n < 12 then lastMask s 1 (32 * (n - 10)) 32
    else if n < 20 then lastMask s 3 (32 * (n - 12)) 32
    else if n = 20 then fl (isLasting s 9 0) 14 + fl (isLasting s 8 0) 13 + fl (isLasting s 7 0) 12 + fl (isLasting s 6 0) 11
      + fl (isLasting s 5 0) 10 + bf (lastMask s 4 0 2) 9 8 + bf (lastMask s 2 0 8) 7 0
    else if n = 21 then s.flt.logSeq
    else bf s.flt.logDrop 31 16 + bf (min 16384 s.flt.log.length) 15 0)

/-! ### What reading clears (R8, R9) -/

/-- Word of a channel's three in SAMPSTAT. -/
def sampClear (k : Nat) (x : SampCh) : SampCh :=
  if k = 0 then { x with parkOvf := 0, gateOvf := 0 } else if k = 1 then { x with lateMiss := 0, parkAdj := 0, calOvf := 0 } else x

/-- Word `n` of a status block reads what is held: the domain that feeds it is on. -/
def wordLive (s : State) (id n : Nat) : Bool :=
  if id = 0xE1 then domUp s (inputDom (n - 1))
  else if id = 0xE2 then domUp s (inputDom ((n - 1) / 3))
  else if id = 0xE3 ∨ id = 0xEF then domUp s 9
  else if id = 0xE4 then
    if 4 ≤ n ∧ n < 68 then engineUp s (n - 4) else if 132 ≤ n then quarterUp s ((n - 132) / 64) else true
  else if id = 0xE6 then domUp s 14
  else if id = 0xE8 then decide (n = 1) || domUp s 18
  else if id = 0xEA then domUp s 18
  else if id = 0xEB then domUp s 19
  else if id = 0xED then decide (n < 6) || domUp s 16
  else if id = 0xEE then domUp s 17
  else true

/-- RC fields of word `n` of status block `id` are cleared. A word that reads 0 for want of its domain returns no count, so it
clears none (R9; log entry 117). -/
def rcClear (id n : Nat) (s : State) : State :=
  if n = 0 ∨ ¬ wordLive s id n then s
  else if id = 0xE0 then
    if n = 7 then { s with sys := { s.sys with deferCnt := 0, forcedCnt := 0 } }
    else if n = 8 then { s with sys := { s.sys with badCrc := 0, badOpc := 0, formatCnt := 0 } }
    else s
  else if id = 0xE1 then modFront (n - 1) (fun x => { x with satCnt := 0 }) s
  else if id = 0xE2 then modSampCh ((n - 1) / 3) (sampClear ((n - 1) % 3)) s
  else if id = 0xE3 then
    if n = 1 then { s with fire := { s.fire with subSkip := 0 } }
    else if n % 2 = 1 then modEmit ((n - 2) / 2) (fun m => { m with withheld := 0, posSkip := 0, startMiss := 0, startSat := 0 }) s
    else s
  else if id = 0xE4 then
    if n = 2 then { s with eng := { s.eng with reorderFull := 0, fullSince := s.eng.fullSince.map fun t => max t (usEnd s) } }
    else if 4 ≤ n ∧ n < 68 then modEngine (n - 4) (fun e => { e with eccCorr := 0, eccUnc := 0 }) s
    else if 132 ≤ n then modEngCh (n - 132) (fun x => { x with shed := 0, late := 0, eccDrop := 0 }) s
    else s
  else if id = 0xE6 then
    if n = 2 then { s with stk := { s.stk with histMiss := 0 } }
    else if n = 4 then { s with stk := { s.stk with stkMiss := 0, stkDisc := 0 } }
    else if n = 5 then { s with stk := { s.stk with stMismatch := 0, stDrop := 0 } }
    else if n = 6 then { s with stk := { s.stk with
      spillWait := 0, spills := s.stk.spills.map fun q => { q with since := q.since.map fun t => max t (usEnd s) } } }
    else s
  else if id = 0xE7 then (if n = 1 then { s with cal := { s.cal with storeErr := false } } else s)
  else if id = 0xE8 then
    if n = 1 then { s with hk := { s.hk with bufOvr := false } }
    else if n = 3 then { s with hk := { s.hk with settleCnt := 0, blankedCnt := 0 } }
    else if n = 4 then { s with hk := { s.hk with abortCnt := 0, timerMiss := 0, refFail := 0 } }
    else if n = 5 then { s with hk := { s.hk with blankAbort := 0 } }
    else s
  else if id = 0xEA then
    if n = 1 then { s with hk := { s.hk with openCnt := 0, shortCnt := 0 } }
    else if n = 2 then { s with hk := { s.hk with boOpen := 0 } }
    else s
  else if id = 0xEB then (if (n - 1) % 6 = 5 then modAxis ((n - 1) / 6) (fun a => { a with encErr := 0, feCnt := 0, fltCnt := 0 }) s else s)
  else if id = 0xEC then
    if n = 1 then { s with port := { s.port with cmdExtra := 0, cmdShort := 0, cmdBadact := 0 } }
    else if n = 2 then { s with port := { s.port with cmdNrdy := 0, cmdRefused := 0, cmdBadhdr := 0 } }
    else if n = 3 then { s with port := { s.port with cmdTimeout := 0, telShort := 0, telColl := 0 } }
    else if n = 4 then { s with port := { s.port with telNrdy := 0, telRepeat := 0 } }
    else if n = 6 then { s with flash := { s.flash with timeouts := 0, verify := 0, wprot := 0 } }
    else s
  else if id = 0xED then
    if n = 3 then { s with link := { s.link with trainTo := 0, retries := 0 } }
    else if n = 5 then { s with link := { s.link with
      credErr := if domUp s 16 then 0 else s.link.credErr
      teleSkip := if domUp s 15 then 0 else s.link.teleSkip
      rxDrop := if domUp s 16 then 0 else s.link.rxDrop } }
    else if 6 ≤ n ∧ n % 2 = 0 then modLane ((n - 6) / 2) (fun l => { l with rxCrc := 0, rxSync := 0 }) s
    else s
  else if id = 0xEE then
    if n = 5 then { s with arch := { s.arch with writeErr := 0, timeouts := 0 } }
    else if n = 6 then { s with arch := { s.arch with dropWave := 0 } }
    else if n = 7 then { s with arch := { s.arch with dropEcho := 0 } }
    else if n = 8 then { s with arch := { s.arch with dropHist := 0 } }
    else if n = 10 then { s with arch := { s.arch with budgetDrop := 0 } }
    else s
  else if id = 0xEF then
    if n = 2 then { s with casc := { s.casc with ringLoss := 0, syncErr := 0, fwdTo := 0 } }
    else if n = 3 then { s with casc := { s.casc with crcErr := 0 } }
    else s
  else if id = 0xC0 then (if n = 22 then { s with flt := { s.flt with logDrop := 0 } } else s)
  else s

end Sys2Proof.Machine
end

