-- ==== Sys2Proof/Machine/Packets.lean ====
section
/-!
DEFINITION. The opcodes of the interpreter (R314-R340): identity and status, parameter blocks, COMMIT, the register
window, STATE, and the requests to the housekeeping converter, the steering engine, the archive and the event log.
-/

namespace Sys2Proof.Machine

/-! ### Identity and status (R319, R320) -/

/-- IDENT's nine words. The device is of revision B1, R320's example (log entry 127). -/
def identWords (s : State) : List Word :=
  let u := s.upd
  [wd 0x02564231, wd u.versSup, wd u.versEng, wd u.versStr, wd u.versLnk,
   wd (fl s.sys.cascRole 31 + bf s.sys.cascId 30 28 + fl s.sys.bootSrc 27 + bf (if s.sys.devState = .recovery then 7 else u.running) 26 24),
   wd Config.dieNumber, wd (Config.dieNumber / 2 ^ 32), userTag (rd s)]

/-- NOP. -/
def execNop (q : Req) (s : State) : Out :=
  .next (serve 0x00 false (decide (q.payload.length = 0)) (fun q s => replyTo 0x00 q 0 [] s) q s)

/-- IDENT. -/
def execIdent (q : Req) (s : State) : Out :=
  .next (serve 0x01 false (decide (q.payload.length = 0)) (fun q s => replyTo 0x01 q 0 (identWords s) s) q s)

/-- GET_STATUS: DEVSTAT words 1-6; none of them is cleared by reading. -/
def execGetStatus (q : Req) (s : State) : Out :=
  .next (serve 0x02 false (decide (q.payload.length = 0)) (fun q s => replyTo 0x02 q 0 ((upto 1 6).map (statusWord s 0xE0)) s) q s)

/-! ### Parameter blocks (R325-R327) -/

/-- The word of an error reply: block ID and offset (R314). -/
def errWord (id off : Nat) : Word := wd (put id 8 24 + put off 16 0)

/-- Offset of the first word with a field out of range. -/
def firstBad (id : Nat) : Nat → List Word → Option Nat
  | _, [] => none
  | off, w :: r => if wordInRange id off w then firstBad id (off + 1) r else some off

/-- Words stored one after another in a copy. -/
def putWords (id : Nat) : Nat → List Word → Tab (Tab Word) → Tab (Tab Word)
  | _, [], c => c
  | off, w :: r, c => putWords id (off + 1) r (cput c id off w)

/-- A FORMAT reply (R326). -/
def formatReply (q : Req) (s : State) : State :=
  replyTo 0x10 q 6 [] { s with sys := { s.sys with formatCnt := satAdd 8 s.sys.formatCnt 1 } }

/-- SET_PARAM. -/
def setParam (q : Req) (s : State) : State :=
  let id := fld (qw q 0) 31 24
  let off := fld (qw q 0) 15 0
  let ws := q.payload.drop 2
  if (statusLen id).isSome then replyTo 0x10 q 10 [] s
  else match blockLen id with
    | none => replyTo 0x10 q 5 [errWord id off] s
    | some len =>
      if fld (qw q 1) 31 16 ≠ fld formatWord 31 16 then
        formatReply q { s with cfg := { s.cfg with slate := tset [] s.cfg.slate id [], written := addNew s.cfg.written id } }
      else if fld formatWord 15 0 < fld (qw q 1) 15 0 then formatReply q s
      else if len < off + ws.length then replyTo 0x10 q 9 [] s
      else match firstBad id off ws with
        | some k => replyTo 0x10 q 8 [errWord id k] s
        | none => replyTo 0x10 q 0 [] { s with cfg := { s.cfg with slate := putWords id off ws s.cfg.slate, written := addNew s.cfg.written id } }

def execSetParam (q : Req) (s : State) : Out :=
  .next (serve 0x10 true (decide (3 ≤ q.payload.length) && decide (q.payload.length ≤ 1024)) setParam q s)

/-- Words of any block. -/
def anyLen (id : Nat) : Option Nat := match blockLen id with | some n => some n | none => statusLen id

/-- A block's word in the copy named; status words of POWER and FAULT are the present ones in every copy. -/
def paramWord (s : State) (copy id off : Nat) : Word :=
  if (statusLen id).isSome then statusWord s id off
  else if id = 0xB0 ∧ off = 2 then powerWord s
  else if id = 0xC0 ∧ 10 ≤ off then faultStatus s off
  else if copy = 0 then rd s id off
  else if copy = 1 then cget s.cfg.slate id off
  else rdNext s id off

/-- GET_PARAM: copy and count are checked before the extent; what is read is cleared. -/
def getParam (q : Req) (s : State) : State :=
  let id := fld (qw q 0) 31 24
  let off := fld (qw q 0) 15 0
  let copy := fld (qw q 1) 31 30
  let n := fld (qw q 1) 10 0
  match anyLen id with
  | none => replyTo 0x11 q 5 [] s
  | some len =>
    if copy = 3 ∨ n = 0 ∨ 1024 < n then replyTo 0x11 q 8 [] s
    else
      let m := min n (len - off)
      replyTo 0x11 q (if len < off + n then 9 else 0) ((upto off m).map (paramWord s copy id) ++ List.replicate (n - m) 0)
        (each (upto off m) (rcClear id) s)

def execGetParam (q : Req) (s : State) : Out := .next (serve 0x11 false (decide (q.payload.length = 2)) getParam q s)

/-! ### COMMIT and DISCARD (R328, R329) -/

/-- The axis is in a mode with the generator's speed limits, or a change to one waits (R268). -/
def limitsUsed (s : State) (x : Nat) : Bool :=
  let g := fun (m : AxMode) => m == .profile || m == .velocity
  g (axis s x).mode || (match (axis s x).pendMode with | some m => g m.mode | none => false)

/-- Offset of the first of VMAX, AMAX and JMAX that is 0. -/
def zeroLimit (r : Rd) (x : Nat) : Option Nat := [12, 13, 14].find? fun k => stw r x k == 0

/-- Offset at which a slate breaks a cross-field rule answered RANGE (R245, R264, R268, R341, R390, R398). -/
def crossRange (s : State) (r : Rd) (id : Nat) : Option Nat :=
  if id = 0x02 then (if isMaster s ∧ frameMode r = 2 then some 1 else none)
  else if id = 0x62 then ((List.range 15).find? fun i => decide (utX r (i + 1) ≤ utX r i)).map fun i => 27 + 2 * i
  else if id = 0x70 ∨ id = 0x71 then
    (let x := id - 0x70
     if encSsi r x ∧ pwmPer r x * 5 < (ssiBits r x + 1) * ssiDiv r x * 10 + 3000 then some 2
     else if limitsUsed s x then zeroLimit r x else none)
  else if id = 0x80 then (if txLanes r < rxLanes r then some 1 else none)
  else if id = 0x90 then (if 256 < quotaOf r 0 + quotaOf r 1 + quotaOf r 2 then some 3 else none)
  else if id = 0xA0 then (if cascMaster s ∧ leadNs r < 250 * (s.casc.present.length - 1) + 300 then some 1 else none)
  else none

/-- Offset of a field of R260 that a slate changes while its axis is not OFF. -/
def crossState (s : State) (r : Rd) (id : Nat) : Option Nat :=
  if id = 0x70 ∨ id = 0x71 then
    let x := id - 0x70
    let n := rdNext s
    if (axis s x).mode = .off then none
    else if (encSsi r x, encDir r x, ssiGray r x, ssiBits r x) ≠ (encSsi n x, encDir n x, ssiGray n x, ssiBits n x) then some 1
    else if cpr r x ≠ cpr n x then some 3
    else none
  else none

/-- Written blocks in ascending ID, and the first that a rule turns away: block and offset. -/
def firstCross (s : State) (rule : State → Rd → Nat → Option Nat) : Option (Nat × Nat) :=
  (blockIds.filter fun id => s.cfg.written.contains id).findSome? fun id =>
    (rule s (cget s.cfg.slate) id).map fun off => (id, off)

/-- A broadcast COMMIT that comes after the FRAME_END of the next boundary goes into the set of the one after (R401). -/
def commitLate (q : Req) (s : State) : Bool :=
  s.sys.cascRole && s.casc.enumOk && decide (q.dest.toNat % 16 = 15) && s.casc.events.any fun p => isFrameEnd p.1 && !p.2.2

/-- The written slates join the pending set under a new COMMIT_ID. -/
def commitSet (late : Bool) (s : State) : State :=
  let c := s.cfg
  let id := wrapAdd 16 s.sys.commitId 1
  { s with
    sys := { s.sys with commitId := id }
    cfg := { c with
      held := if late && c.held.isNone then some (c.pend, c.pendBlocks, c.pendId) else c.held
      heldNew := if late then c.written.foldl addNew c.heldNew else c.heldNew
      pend := c.written.foldl (fun t b => tset [] t b (tget [] c.slate b)) c.pend
      pendBlocks := c.written.foldl addNew c.pendBlocks
      pendId := some id
      written := []
      fmtReset := maskOf ((bitsSet 31 0 c.fmtReset).filter fun k => !c.written.contains (blockIds.getD k 0)) } }

/-- COMMIT: the cross-field rules, RANGE before STATE (R314); then the set, applied at once in IDLE and SAFE. -/
def commit (q : Req) (s : State) : State :=
  match firstCross s crossRange with
  | some p => replyTo 0x12 q 8 [errWord p.1 p.2] s
  | none =>
    match firstCross s crossState with
    | some p => replyTo 0x12 q 7 [errWord p.1 p.2] s
    | none =>
      let s1 := commitSet (commitLate q s) s
      if s.sys.devState = .idle ∨ s.sys.devState = .safe then replyTo 0x12 q 0 [wd s1.sys.commitId] (applyNow s1)
      else replyTo 0x12 q 12 [wd s1.sys.commitId] s1

def execCommit (q : Req) (s : State) : Out := .next (serve 0x12 true (decide (q.payload.length = 0)) commit q s)

/-- The copy of a block that will be in force once the pending set applies. -/
def nextCopy (s : State) (id : Nat) : Tab Word :=
  if s.cfg.pendBlocks.contains id then tget [] s.cfg.pend id
  else if s.cfg.token && s.cfg.fixedBlocks.contains id then tget [] s.cfg.fixed id
  else tget [] s.cfg.active id

/-- DISCARD. -/
def discard (q : Req) (s : State) : State :=
  replyTo 0x13 q 0 [] { s with cfg := { s.cfg with
    slate := s.cfg.written.foldl (fun t b => tset [] t b (nextCopy s b)) s.cfg.slate
    written := [] } }

def execDiscard (q : Req) (s : State) : Out := .next (serve 0x13 true (decide (q.payload.length = 0)) discard q s)

/-! ### The register window (R333-R336, R338, R339, R226, R299) -/

/-- The register blocks of R333. -/
inductive RegBlk where
  | stat (id : Nat)
  | hkBuf
  | hkIdx
  | irqRegs
  | telList
  deriving DecidableEq, Repr

/-- The block that holds an address: its first address and its words. -/
def regBlock (a : Nat) : Option (RegBlk × Nat × Nat) :=
  if 0xE0000 ≤ a ∧ a < 0xF0000 then
    let id := a / 0x1000
    let base := 0x1000 * id
    match statusLen id with
    | some n => if a < base + 4 * n then some (.stat id, base, n) else none
    | none => none
  else if 0x100000 ≤ a ∧ a < 0x108000 then some (.hkBuf, 0x100000, 8192)
  else if 0x108000 ≤ a ∧ a < 0x108008 then some (.hkIdx, 0x108000, 2)
  else if 0x110000 ≤ a ∧ a < 0x11000C then some (.irqRegs, 0x110000, 3)
  else if 0x120000 ≤ a ∧ a < 0x120084 then some (.telList, 0x120000, 33)
  else none

/-- A reply waits for the command port: RPLY. -/
def rplyBit (s : State) : Bool := s.port.replies.any fun r => r.org == .cmdPort

/-- Word `k` of a register block. -/
def regWord (s : State) (b : RegBlk) (k : Nat) : Word :=
  match b with
  | .stat id => statusWord s id k
  | .hkBuf => wd (tget 0 s.hk.buf (k / 2) / 2 ^ (32 * (k % 2)))
  | .hkIdx => wd (if k = 0 then s.hk.rd else s.hk.wr)
  | .irqRegs => wd (if k = 0 then s.sys.irqPend + b2n (rplyBit s) else if k = 1 then s.sys.irqMask else s.sys.hkIrqLvl)
  | .telList => wd (if k = 0 then s.port.tlLenM1 else tget 0 s.port.tl (k - 1))

/-- READ_REG: address and count are checked before the extent. -/
def readReg (q : Req) (s : State) : State :=
  let a := (qw q 0).toNat
  let n := (qw q 1).toNat
  match regBlock a with
  | none => replyTo 0x14 q 5 [] s
  | some (b, base, len) =>
    if a % 4 ≠ 0 ∨ n = 0 ∨ 1024 < n then replyTo 0x14 q 8 [] s
    else
      let k := (a - base) / 4
      let m := min n (len - k)
      replyTo 0x14 q (if len < k + n then 9 else 0) ((upto k m).map (regWord s b) ++ List.replicate (n - m) 0)
        (match b with | .stat id => each (upto k m) (rcClear id) s | .hkBuf | .hkIdx | .irqRegs | .telList => s)

def execReadReg (q : Req) (s : State) : Out := .next (serve 0x14 false (decide (q.payload.length = 2)) readReg q s)

/-- Tags of R298. -/
def tagListed (t : Nat) : Bool := decide (t ≤ 9) || (decide (0x10 ≤ t) && decide (t ≤ 0x18)) || decide (0x3F ≤ t)

/-- The values written are in range: no reserved tag. -/
def regInRange (b : RegBlk) (k : Nat) (w : Word) : Bool :=
  match b with
  | .telList => k == 0 || tagListed (fld w 6 0)
  | .stat _ | .hkBuf | .hkIdx | .irqRegs => true

/-- A list position takes a tag: what was last sent from it belongs to the former item. -/
def tlPut (p v : Nat) (s : State) : State :=
  let other := tget 0 s.port.tl p % 128 != v % 128
  { s with port := { s.port with
    tl := tset 0 s.port.tl p v
    sentVer := if other then tset 0 s.port.sentVer p 0 else s.port.sentVer } }

/-- One register written; writes to RO registers are ignored. -/
def regPut (b : RegBlk) (k : Nat) (w : Word) (s : State) : State :=
  match b with
  | .stat _ | .hkBuf => s
  | .hkIdx =>
    if k = 0 then
      let r := fld w 11 0
      { s with hk := { s.hk with rd := r, unread := (s.hk.wr + 4096 - r) % 4096 } }
    else s
  | .irqRegs =>
    if k = 0 then { s with sys := { s.sys with irqPend := maskOf ((bitsSet 13 0 s.sys.irqPend).filter fun i => i == 0 || !bit w i) } }
    else if k = 1 then { s with sys := { s.sys with irqMask := fld w 12 0 } }
    else { s with sys := { s.sys with hkIrqLvl := fld w 11 0 } }
  | .telList => if k = 0 then { s with port := { s.port with tlLenM1 := fld w 4 0 } } else tlPut (k - 1) (fld w 7 0) s

/-- Registers written one after another. -/
def regPuts (b : RegBlk) : Nat → List Word → State → State
  | _, [], s => s
  | k, w :: r, s => regPuts b (k + 1) r (regPut b k w s)

/-- Every value written is in range. -/
def regsInRange (b : RegBlk) : Nat → List Word → Bool
  | _, [] => true
  | k, w :: r => regInRange b k w && regsInRange b (k + 1) r

/-- WRITE_REG. A write of the telemetry list restarts a running list at the next word boundary (R297). -/
def writeReg (q : Req) (s : State) : State :=
  let a := (qw q 0).toNat
  let ws := q.payload.drop 1
  match regBlock a with
  | none => replyTo 0x15 q 5 [] s
  | some (b, base, len) =>
    let k := (a - base) / 4
    if base + 4 * len < a + 4 * ws.length then replyTo 0x15 q 9 [] s
    else if a % 4 ≠ 0 ∨ ¬ regsInRange b k ws then replyTo 0x15 q 8 [] s
    else
      let s1 := regPuts b k ws s
      replyTo 0x15 q 0 [] (if b = .telList then { s1 with port := { s1.port with tlNew := s1.port.telOn } } else s1)

/-- A WRITE_REG request. -/
def serveWrite (q : Req) (s : State) : State :=
  serve 0x15 true (decide (2 ≤ q.payload.length) && decide (q.payload.length ≤ 1024)) writeReg q s

def execWriteReg (q : Req) (s : State) : Out := .next (serveWrite q s)

/-- IRQ_PEND_CLEAR: a WRITE_REG that begins at IRQ_PEND. -/
def execIrqPendClear (q : Req) (s : State) : Out := .next (if (qw q 0).toNat = 0x110000 then serveWrite q s else s)

/-- HKBUF_RD_WRITE: a WRITE_REG that begins at HKBUF_RD. -/
def execHkbufRdWrite (q : Req) (s : State) : Out := .next (if (qw q 0).toNat = 0x108000 then serveWrite q s else s)

/-- TELEMETRY_LIST_WRITE: a WRITE_REG that begins in the telemetry list. -/
def execTelemetryListWrite (q : Req) (s : State) : Out :=
  .next (if 0x120000 ≤ (qw q 0).toNat ∧ (qw q 0).toNat < 0x120084 then serveWrite q s else s)

/-! ### STATE (R31, R337) -/

/-- STATE's targets from a state. -/
def stateTargets (d : DevState) : List Nat :=
  match d with
  | .idle => [2]
  | .armed => [3, 1]
  | .run => [4, 1]
  | .hold => [3, 1]
  | .safe => [1]
  | .boot | .recovery => []

/-- RUN is refused while D19 is off (R17). -/
def runRefused (s : State) : Bool := !domOn s 19 && (schedPos (rd s) || decide (frameMode (rd s) = 0))

/-- Entry to ARMED from IDLE: automatic ranges start (R41). -/
def enterArmed (s : State) : State :=
  setDev .armed (each ((poweredChans s).filter fun c => !rangeFixed (rd s) (c / 32)) (fun c s => setRange c (startRange (rd s) c) s) s)

/-- A change that waits for a boundary. -/
def stateWaits (t : Nat) (q : Req) (s : State) : State :=
  replyTo 0x20 q 12 [] { s with sys := { s.sys with statePend := true, stateTarget := t } }

/-- A slave enters RUN with every device or not at all: its master's broadcast alone asks for it (R401). -/
def runAlone (q : Req) (s : State) : Bool := isSlave s && !(q.org == .ring && decide (q.dest.toNat % 16 = 15))

/-- ARMED to RUN. Whether every enumerated device is ARMED, a master knows only from them, so with slaves it is a free bit
(R401). -/
def armedRun (q : Req) (s : State) : State :=
  if cascMaster s ∧ others s ≠ [] then
    let f := takeFree 1 s
    if f.1 = 1 then stateWaits 3 q f.2 else replyTo 0x20 q 10 [] f.2
  else stateWaits 3 q s

/-- STATE. -/
def stateReq (q : Req) (s : State) : State :=
  let t := fld (qw q 0) 2 0
  let d := s.sys.devState
  if t = 7 then replyTo 0x20 q 8 [] s
  else if t = stateCode d then replyTo 0x20 q 0 [] s
  else if ¬ (stateTargets d).contains t ∨ (d = .safe ∧ protLasting s) then replyTo 0x20 q 7 [] s
  else if s.sys.statePend then replyTo 0x20 q 1 [] s
  else if t = 2 then
    (if ¬ domUp s 9 ∨ (isMaster s ∧ ¬ (s.casc.enumOk ∧ s.casc.aligned)) then replyTo 0x20 q 10 [] s
     else replyTo 0x20 q 0 [] (enterArmed s))
  else if t = 3 ∧ (runRefused s ∨ runAlone q s) then replyTo 0x20 q 10 [] s
  else match d with
    | .armed => if t = 3 then armedRun q s else replyTo 0x20 q 0 [] (enterIdle s)
    | .hold => if t = 3 then replyTo 0x20 q 0 [] (setDev .run s) else replyTo 0x20 q 0 [] (enterIdle s)
    | .run => stateWaits t q s
    | .safe => replyTo 0x20 q 0 [] (enterIdle { s with fire := { s.fire with faultInh := false } })
    | .idle | .boot | .recovery => s

def execState (q : Req) (s : State) : Out := .next (serve 0x20 true (decide (q.payload.length = 1)) stateReq q s)

/-- LANE_STATE: the stream link's lanes, or the archive port's. -/
def execLaneState (q : Req) (s : State) : Out :=
  .next (serve 0x22 true (decide (q.payload.length = 1)) (fun q s => if bit (qw q 0) 31 then archLaneState q s else linkLaneState q s) q s)

/-! ### Calibration and housekeeping (R180, R217, R220, R322) -/

/-- Phase results of a group's channels. -/
def grpResults (s : State) (g : Nat) : List Nat :=
  (groupChans g).flatMap fun c =>
    let x := calCh s c
    [x.pedRes, x.widthRes, if c < 256 then x.gainRes else 3, x.zeroRes]

/-- Status of the last completed run; without one there is no data. -/
def calOutcome (s : State) : Nat :=
  match s.cal.lastGrp with
  | none => 15
  | some g =>
    let l := grpResults s g
    if l.all fun r => r == 0 || r == 3 then 0 else if l.any fun r => r == 1 then 14 else 15

/-- CAL_STATUS: CALSTAT words 1-10. -/
def execCalStatus (q : Req) (s : State) : Out :=
  .next (serve 0x31 false (decide (q.payload.length = 0))
    (fun q s => replyTo 0x31 q (calOutcome s) ((upto 1 10).map (statusWord s 0xE7)) (each (upto 1 10) (rcClear 0xE7) s)) q s)

/-- HK_SELFCAL. -/
def execHkSelfcal (q : Req) (s : State) : Out :=
  .next (serve 0x32 true (decide (q.payload.length = 0)) (fun q s =>
    if ¬ domUp s 18 then replyTo 0x32 q 10 [] s
    else if s.hk.selfBusy then replyTo 0x32 q 1 [] s
    else replyTo 0x32 q 0 [] { s with hk := { s.hk with selfBusy := true, selfWait := true, selfBefore := s.hk.inj.length } }) q s)

/-- HK_INJECT. -/
def execHkInject (q : Req) (s : State) : Out :=
  .next (serve 0x33 true (decide (q.payload.length = 4)) (fun q s =>
    if ¬ entInRange (qw q 1, qw q 2, qw q 3) then replyTo 0x33 q 8 [] s
    else if ¬ domUp s 18 then replyTo 0x33 q 10 [] s
    else if 4 ≤ injCount s then replyTo 0x33 q 1 [] s
    else replyTo 0x33 q 0 [] (hkInject ⟨qw q 1, qw q 2, qw q 3, some (fld (qw q 0) 5 0), 0⟩ s)) q s)

/-! ### Steering (R268-R270) -/

/-- STEER_MODE. OFF takes effect at once, and its reply follows the next sample as any mode's does (R270, R271). -/
def steerMode (q : Req) (s : State) : State :=
  let w := qw q 0
  let x := fld w 31 31
  let n := fld w 30 28
  let m := axModeOf n
  let noLimits := (m = .profile ∨ m = .velocity) ∧ ((zeroLimit (rd s) x).isSome ∨ (zeroLimit (rdNext s) x).isSome)
  if 5 ≤ n ∨ noLimits then replyTo 0x40 q 8 [] s
  else if s.sys.devState = .safe ∧ m ≠ .off then replyTo 0x40 q 7 [] s
  else if ¬ domUp s 19 then replyTo 0x40 q 10 [] s
  else if (axis s x).axFault ∧ m ≠ .off then replyTo 0x40 q 10 [] s
  else if bit w 27 ∧ (s.sys.devState = .armed ∨ s.sys.devState = .run ∨ s.sys.devState = .hold) then
    replyTo 0x40 q 12 [] (modAxis x (fun a => { a with pendMode := some ⟨m, true, false, true, none⟩, faultActive := false }) s)
  else pwmGone (modAxis x (fun a =>
    { (if m = .off then axOff a else a) with pendMode := some ⟨m, false, false, false, some q⟩, faultActive := false }) s)

def execSteerMode (q : Req) (s : State) : Out := .next (serve 0x40 true (decide (q.payload.length = 1)) steerMode q s)

/-- STEER_MOVE. -/
def steerMove (q : Req) (s : State) : State :=
  let x := fld (qw q 0) 31 31
  let a := axis s x
  if s.sys.devState = .safe then replyTo 0x41 q 7 [] s
  else if ¬ domUp s 19 then replyTo 0x41 q 10 [] s
  else if a.mode = .off ∨ a.faultActive then replyTo 0x41 q 7 [] s
  else
    let t2 := if bit (qw q 0) 30 then some (sgn 32 (qw q 2).toNat) else none
    replyTo 0x41 q 0 [] (modAxis x (fun a => { a with pendMove := some (sgn 32 (qw q 1).toNat, t2), moveDone := false }) s)

def execSteerMove (q : Req) (s : State) : Out :=
  .next (serve 0x41 true (decide (q.payload.length = 3) || (decide (q.payload.length = 2) && !bit (qw q 0) 30)) steerMove q s)

/-- The reply a mode change owed once its sample has run, and source STEER where it was PENDING (R270). -/
def modeTaken (p : Option PendMode) (s : State) : State :=
  match p with
  | none => s
  | some m =>
    if m.wait then s
    else
      let s1 := if m.pended then irq 12 s else s
      match m.req with
      | some q => replyTo 0x40 q 0 [] s1
      | none => s1

/-- LOOP_SAMPLE: a sample that is due runs; of an SSI axis on the reading just completed (R264, R266). -/
def execLoopSample (x : Nat) (s : State) : Out :=
  guardObj (decide (x < 2)) <|
    if domUp s 19 && (axis s x).due then
      let r := axRd s x
      let a0 := axis s x
      let f := takeFree 1 s
      let c := if encSsi r x then a0.p else a0.pLatch
      let s0 := settle (modeTaken a0.pendMode (pwmGone (modAxis x (axSample r x c f.1) f.2)))
      let s1 := putItem (5 + x) (satI 24 ((axis s0 x).ferr / 256)) (putItem (3 + x) (angleNow s0 x) s0)
      let a1 := axis s1 x
      if beyond r x a1 ∧ feTime r x ≤ a1.feRun then declareAxis x 1 (modAxis x (fun a => { a with feRun := 0 }) s1) else s1
    else s

/-! ### Archive, faults, unlisted opcodes (R314, R323) -/

def execArchMount (q : Req) (s : State) : Out := .next (serve 0x50 true (decide (q.payload.length = 2)) archMount q s)
def execArchStart (q : Req) (s : State) : Out := .next (serve 0x51 true (decide (q.payload.length = 1)) archStart q s)
def execArchStop (q : Req) (s : State) : Out := .next (serve 0x52 true (decide (q.payload.length = 1)) archStop q s)

/-- ARCH_STATUS: ARCHSTAT words 1 onward; DENIED while D17 is off. -/
def execArchStatus (q : Req) (s : State) : Out :=
  .next (serve 0x53 false (decide (q.payload.length = 0)) (fun q s =>
    if ¬ domUp s 17 then replyTo 0x53 q 10 [] s
    else replyTo 0x53 q 0 ((upto 1 10).map (statusWord s 0xEE)) (each (upto 1 10) (rcClear 0xEE) s)) q s)

def execFaultRead (q : Req) (s : State) : Out := .next (serve 0x70 false (decide (q.payload.length = 2)) faultRead q s)
def execFaultClear (q : Req) (s : State) : Out := .next (serve 0x71 true (decide (q.payload.length = 1)) faultClear q s)

/-- Opcodes of R319-R323. -/
def listedOpc : List Nat :=
  [0x00, 0x01, 0x02, 0x10, 0x11, 0x12, 0x13, 0x14, 0x15, 0x20, 0x21, 0x22, 0x23, 0x30, 0x31, 0x32, 0x33, 0x40, 0x41,
   0x50, 0x51, 0x52, 0x53, 0x60, 0x61, 0x62, 0x63, 0x64, 0x65, 0x66, 0x70, 0x71, 0x80]

/-- A request of an unlisted opcode is answered before DEST is looked at. -/
def badOpcode (opc : Byte) (q : Req) (s : State) : State :=
  if ¬ q.crcOk then replyTo opc.toNat q 4 [] { s with sys := { s.sys with badCrc := satAdd 16 s.sys.badCrc 1 } }
  else replyTo opc.toNat q 2 [] { s with sys := { s.sys with badOpc := satAdd 8 s.sys.badOpc 1 } }

/-- UNKNOWN_OPCODE. -/
def execUnknownOpcode (opc : Byte) (q : Req) (s : State) : Out :=
  .next (if listedOpc.contains opc.toNat then s else serveWith opc (badOpcode opc) q s)

end Sys2Proof.Machine
end

