-- ==== Sys2Proof/Machine/Flags.lean ====
section
/-!
DEFINITION. The status byte, the STATE telemetry item and the levels of the output pins, as they follow from the state
(R54, R87, R101, R285, R298, R338).
-/

namespace Sys2Proof.Machine

/-- The device is held in reset: RESETn low or the power-on reset active. -/
def inReset (s : State) : Bool := s.sys.resetLow || s.sys.porLow

/-- MODE of the status byte (R30). -/
def modeField (d : DevState) : Nat :=
  match d with
  | .boot => 3
  | .recovery => 2
  | .safe => 1
  | .idle | .armed | .run | .hold => 0

/-- EVT: some source but RPLY is pending, masked or not. -/
def evtBit (s : State) : Bool := decide (s.sys.irqPend / 2 ≠ 0)

/-- The status byte. -/
def statusByte (s : State) : Byte :=
  BitVec.ofNat 8 (fl s.sys.rdy 7 + fl (rplyBit s) 6 + fl (evtBit s) 5 + fl (fltBit s) 4 + bf (modeField s.sys.devState) 3 2
    + fl (bufSpace s) 1 + fl s.port.lasterr 0)

/-- CP_IRQn is low. -/
def irqPinLow (s : State) : Bool := decide ((s.sys.irqPend + b2n (rplyBit s)) &&& s.sys.irqMask ≠ 0)

/-- FIRE output of an emitter is high: a pulse has begun and its WIDTH is not over (R87, R88). -/
def firePin (s : State) (e : Nat) : Bool := !inReset s && domUp s 9 && (emit s e).high && decide (s.sys.now < (emit s e).fallAt)

/-- ARM output `n` is high. -/
def armPin (s : State) (n : Nat) : Bool :=
  let live := match opState s with
    | .armed | .run | .hold => true
    | .boot | .idle | .safe | .recovery => false
  !inReset s && domUp s 9 && live && (List.range 16).any fun e => emEn (rd s) e && emArm (rd s) e == n

/-- SAFEn is driven low. -/
def safenLow (s : State) : Bool :=
  inReset s || s.sys.devState == .boot || s.sys.devState == .safe || (s.sys.devState == .recovery && s.fire.faultInh)
    || (inhibitPin (rd s) && s.fire.velInh)

/-- Level of ZONE pin `p`. -/
def zonePin (s : State) (p : Nat) : Bool :=
  if inReset s ∨ s.sys.devState = .boot ∨ ¬ domUp s 9 then false
  else (pinEn (rd s) p && (tget ZonePin.reset s.zone.pins p).on) != pinPol (rd s) p

/-- Value of the STATE telemetry item. -/
def stateItem (s : State) : Nat :=
  bf (stateCode s.sys.devState) 23 21 + fl (fltBit s) 20 + fl s.fire.faultInh 19 + fl s.fire.velInh 18 + fl s.sys.tempHold 17

end Sys2Proof.Machine
end

