-- ==== Sys2Proof/Machine/Port.lean ====
section
/-!
DEFINITION. The command port: transactions of the command unit, their framing errors, collisions and stalls, and the
telemetry unit (R281-R299, R488, R489).
-/

namespace Sys2Proof.Machine

/-! ### The command unit (R284-R294) -/

/-- A change to the transaction in progress. -/
def modTrans (f : Trans → Trans) (s : State) : State := { s with port := { s.port with tr := s.port.tr.map f } }

/-- Edges beyond a packet, a reply or a STATUS byte. -/
def extraEdges (n : Nat) (s : State) : State := { s with port := { s.port with cmdExtra := satAdd 16 s.port.cmdExtra n } }

/-- Edges of a byte begun while CP_RDY was low; a framing error (R291, R488). -/
def nrdyEdges (n : Nat) (s : State) : State :=
  modTrans (fun t => { t with lasterr := true }) { s with port := { s.port with cmdNrdy := satAdd 16 s.port.cmdNrdy n } }

/-- The transaction is short (R292, R293). -/
def shortTrans (s : State) : State :=
  modTrans (fun t => { t with lasterr := true }) { s with port := { s.port with cmdShort := satAdd 8 s.port.cmdShort 1 } }

/-- The status byte of the transaction showed RDY = 0 or SPACE = 0. -/
def transRefused (t : Trans) : Bool := !(t.statusByte.getLsbD 7 && t.statusByte.getLsbD 1)

/-- The reply that a READ of the transaction shifts: the oldest that waited for the port at the select's fall. -/
def replyFor (p : Port) (t : Trans) : Option Reply :=
  if t.statusByte.getLsbD 6 then p.replies.find? fun r => r.org == .cmdPort else none

def readReply (s : State) : Option Reply := s.port.tr.bind (replyFor s.port)

/-- The receive queue of 64 bytes has room for the next byte of a WRITE (R290). -/
def rxReady (t : Trans) : Bool := decide (t.rxq < 62)

/-- The transmit queue holds the next byte of the reply, or none is left to shift (R287, R290; log entry 137). -/
def txReady (p : Port) (t : Trans) : Bool :=
  match replyFor p t with
  | some r => decide (t.sent < t.loaded) || decide ((replyBytes r).length ≤ t.sent)
  | none => true

/-- CP_RDY: high while both selects are high; else whether the next byte or word can be clocked (R281, R290). -/
def cpRdy (s : State) : Bool :=
  if s.port.telOn then !s.port.tlNew
  else match s.port.tr with
    | some t => if t.action = some 0xA5 then rxReady t else if t.action = some 0x5A then txReady s.port t else true
    | none => true

/-- A byte shifted out on CP_SDO. -/
def shiftOut (b : Byte) (s : State) : State := { s with port := { s.port with sdo := s.port.sdo ++ [b] } }

/-- Bytes of the packet that the header announces. -/
def packetLen (b : List Byte) : Nat := 12 + 4 * hdrLen b

/-- The whole packet has been shifted. -/
def packetFull (t : Trans) : Bool := decide (8 ≤ t.bytes.length) && decide (packetLen t.bytes ≤ t.bytes.length)

/-- CP_CSn falls (R282, R283, R285, R287). -/
def execCpSelectFall (sckHigh : Bool) (s : State) : Out :=
  .next (if inReset s ∨ s.port.csLow then s
    else if s.port.telOn then
      { s with port := { s.port with csLow := true, ignore := true, telColl := satAdd 8 s.port.telColl 1 } }
    else
      { s with port := { s.port with
        csLow := true, ignore := false, mode3 := sckHigh, sdo := []
        tr := some { statusByte := statusByte s, action := none, bytes := [], damaged := false, badHdr := false, tooLong := false,
                     sent := 0, loaded := 16, rxq := 0, cleanRead := true, lasterr := false } } })

/-- The action byte: WRITE made while RDY or SPACE was 0 is refused, any other byte but STATUS and READ is an error. -/
def takeAction (a : Byte) (s : State) : State :=
  match s.port.tr with
  | none => s
  | some t =>
    let s1 := shiftOut t.statusByte (modTrans (fun t => { t with action := some a }) s)
    if a = 0xA5 then
      (if transRefused t then { s1 with port := { s1.port with cmdRefused := satAdd 8 s1.port.cmdRefused 1 } } else s1)
    else if a = 0x00 ∨ a = 0x5A then s1
    else modTrans (fun t => { t with lasterr := true }) { s1 with port := { s1.port with cmdBadact := satAdd 8 s1.port.cmdBadact 1 } }

/-- The action byte is `a` now, or has been in this transaction; else nothing happens. -/
def withAction (a : Byte) (f : State → State) (s : State) : Out :=
  .next (match s.port.tr with
    | none => s
    | some t =>
      match t.action with
      | none => f (takeAction a s)
      | some b => if b = a then f s else s)

/-- STATUS. -/
def execStatus (edges : Nat) (s : State) : Out := withAction 0x00 (extraEdges edges) s

/-- UNKNOWN_ACTION. -/
def execUnknownAction (a : Byte) (s : State) : Out :=
  .next (match s.port.tr with
    | none => s
    | some t => if t.action = none ∧ a ≠ 0x00 ∧ a ≠ 0xA5 ∧ a ≠ 0x5A then takeAction a s else s)

/-- The header is complete: SYNC and HDRCHK, then LEN (R286). -/
def headerSeen (s : State) : State :=
  match s.port.tr with
  | none => s
  | some t =>
    if t.bytes.length ≠ 8 then s
    else if ¬ headerOk t.bytes then
      modTrans (fun t => { t with badHdr := true, lasterr := true }) { s with port := { s.port with cmdBadhdr := satAdd 8 s.port.cmdBadhdr 1 } }
    else if 1024 < hdrLen t.bytes then modTrans (fun t => { t with tooLong := true, lasterr := true }) s
    else s

/-- A byte of `edges` clocks in a WRITE. A not-ready byte is lost with its packet: without a header that has passed there
is nothing to answer (R291). -/
def writeByte (edges : Nat) (b : Byte) (ready : Bool) (s0 : State) : State :=
  let s := if ready then s0 else nrdyEdges edges s0
  match s.port.tr with
  | none => s
  | some t =>
    if transRefused t ∨ t.badHdr then s
    else if t.tooLong ∨ packetFull t then extraEdges edges s
    else if ready then headerSeen (modTrans (fun t => { t with bytes := t.bytes ++ [b], rxq := t.rxq + 1 }) s)
    else if t.bytes.length < 8 then modTrans (fun t => { t with badHdr := true }) s
    else modTrans (fun t => { t with bytes := t.bytes ++ [0], damaged := true }) s

/-- SUP takes `n` bytes out of the receive queue. -/
def supTakes (n : Nat) (s : State) : State := modTrans (fun t => { t with rxq := t.rxq - n }) s

/-- WRITE: bytes shifted after the action byte, each with the bytes SUP has taken from the receive queue before its boundary; the
device shifts 0x00. -/
def execWrite (bytes : List (Byte × Nat)) (s : State) : Out :=
  withAction 0xA5 (each bytes fun x s => let s1 := supTakes x.2 s; shiftOut 0 (writeByte 8 x.1 (cpRdy s1) s1)) s

/-- A byte of `edges` clocks in a READ: the next byte of the reply, or 0x00. -/
def readByte (edges : Nat) (s : State) : State :=
  match s.port.tr, readReply s with
  | some t, some r =>
    if (replyBytes r).length ≤ t.sent then shiftOut 0 (extraEdges edges s)
    else if txReady s.port t then shiftOut ((replyBytes r).getD t.sent 0) (modTrans (fun t => { t with sent := t.sent + 1 }) s)
    else shiftOut 0 (modTrans (fun t => { t with cleanRead := false }) (nrdyEdges edges s))
  | _, _ => shiftOut 0 (extraEdges edges s)

/-- SUP refills the transmit queue of 16 bytes with `n` bytes of the reply. -/
def supLoads (n : Nat) (s : State) : State := modTrans (fun t => { t with loaded := min (t.loaded + n) (t.sent + 16) }) s

/-- READ: bytes shifted after the action byte, each with the bytes of the reply SUP has loaded before its boundary (R287). -/
def execRead (loads : List Nat) (s : State) : Out := withAction 0x5A (each loads fun n s => readByte 8 (supLoads n s)) s

/-- The packet of a WRITE that has ended enters the command buffer, or what the port calls for (R286, R289, R293). -/
def endWrite (t : Trans) (s : State) : State :=
  if transRefused t ∨ t.badHdr then s
  else if t.tooLong then bufOwn .cmdPort 3 t.bytes s
  else if packetFull t then
    (if t.damaged then bufOwn .cmdPort 4 t.bytes s else bufPacket .cmdPort (t.bytes.take (packetLen t.bytes)) s)
  else if t.bytes.length < 8 then s
  else bufOwn .cmdPort (if t.damaged then 4 else 3) t.bytes s

/-- The reply of a READ that has ended is removed if all of it was shifted without a not-ready clock (R288). -/
def endRead (t : Trans) (s : State) : State :=
  match readReply s with
  | some r =>
    if t.cleanRead ∧ (replyBytes r).length ≤ t.sent then { s with port := { s.port with replies := s.port.replies.erase r } } else s
  | none => s

/-- The bits of a byte cut short are its value: byte 0 is the action byte, a byte of a packet its last (R292). A byte
shifted out in part has not been read. -/
def partByte (bits val : Nat) (s : State) : State :=
  match s.port.tr with
  | none => s
  | some t =>
    if t.action = none then takeAction (BitVec.ofNat 8 val) s
    else if t.action = some 0xA5 then writeByte bits (BitVec.ofNat 8 val) (rxReady t) s
    else if t.action = some 0x5A then
      (match readReply s with
        | some r =>
          if (replyBytes r).length ≤ t.sent then extraEdges bits s
          else if txReady s.port t then s
          else modTrans (fun t => { t with cleanRead := false }) (nrdyEdges bits s)
        | none => extraEdges bits s)
    else s

/-- A WRITE that took part in the framing and stopped before its packet's end. -/
def stopsShort (t : Trans) : Bool :=
  t.action == some 0xA5 && !transRefused t && !t.badHdr && !t.tooLong && !packetFull t

/-- The transaction ends: a partly shifted byte counts, then what was shifted takes effect, and LASTERR is this
transaction's outcome. -/
def endTrans (bits val : Nat) (s : State) : State :=
  let s1 := if bits = 0 then s else partByte (bits % 8) (val % 2 ^ (bits % 8)) s
  match s1.port.tr with
  | none => s1
  | some t =>
    let s2 := if 0 < bits ∨ stopsShort t then shortTrans s1 else s1
    let s3 := if t.action = some 0xA5 then endWrite t s2 else if t.action = some 0x5A then endRead t s2 else s2
    let err := match s2.port.tr with | some u => u.lasterr | none => false
    settle { s3 with port := { s3.port with tr := none, lasterr := err } }

/-- CP_SELECT_RISE. -/
def execCpSelectRise (bits val : Nat) (s : State) : Out :=
  .next (if ¬ s.port.csLow then s else let t := endTrans bits val s; { t with port := { t.port with csLow := false } })

/-- CMD_STALL_TIMEOUT: the transaction ends as if the select had risen; the pins are ignored until it does. -/
def execCmdStallTimeout (bits val : Nat) (s : State) : Out :=
  .next (match s.port.tr with
    | none => s
    | some _ =>
      let t := endTrans bits val (modTrans (fun t => { t with lasterr := true }) s)
      { t with port := { t.port with ignore := true, cmdTimeout := satAdd 8 t.port.cmdTimeout 1 } })

/-! ### The telemetry unit (R283, R295-R298) -/

/-- A telemetry transaction starts at list position 0; what was written to the list is in force. -/
def telStart (sckHigh : Bool) (s : State) : State :=
  { s with port := { s.port with telOn := true, telPos := 0, telPrev := 0xBF000000, tlNew := false, mode3 := sckHigh } }

/-- CP_TSn falls while CP_CSn is low: the command transaction ends, and its unit waits for a new fall. -/
def collide (bits val : Nat) (s : State) : State :=
  let t := endTrans bits val s
  { t with port := { t.port with ignore := true, telColl := satAdd 8 t.port.telColl 1 } }

/-- TEL_SELECT_FALL. -/
def execTelSelectFall (sckHigh : Bool) (s : State) : Out :=
  .next (if inReset s ∨ s.port.telOn then s else telStart sckHigh (if s.port.csLow then collide 0 0 s else s))

/-- SELECT_COLLISION: the telemetry unit wins; its fall samples CP_SCK (R282, R283). -/
def execSelectCollision (cmdLow : Option Bool) (bits val : Nat) (s : State) : Out :=
  .next (if inReset s then s
    else match cmdLow with
      | some sckHigh => if s.port.csLow ∧ ¬ s.port.telOn then telStart sckHigh (collide bits val s) else s
      | none =>
        if s.port.telOn ∧ ¬ s.port.csLow then
          { s with port := { s.port with csLow := true, ignore := true, telColl := satAdd 8 s.port.telColl 1 } }
        else s)

/-- The position's word is ready: FRESH waits for a value newer than the one last sent from it (R296). -/
def telReady (s : State) (p : Nat) : Bool := !tlFresh s p || (itemOf s (tlTag s p)).1 != tget 0 s.port.sentVer p

/-- TELEMETRY_WORD: one whole word is sent (R291, R295-R297). `waited`: where CP_RDY was low, for the load of a new list, the
host waited for it to rise. -/
def execTelemetryWord (waited : Bool) (s : State) : Out :=
  .next (if ¬ s.port.telOn then s
    else
      let ready := waited || cpRdy s
      let p0 := if s.port.tlNew ∨ s.port.tlLenM1 < s.port.telPos then 0 else s.port.telPos
      let s1 := { s with port := { s.port with tlNew := false, telPos := p0 } }
      if ready ∧ telReady s p0 then
        let i := itemOf s (tlTag s p0)
        { s1 with port := { s1.port with
          telPos := if s.port.tlLenM1 ≤ p0 then 0 else p0 + 1
          telPrev := telWord false (tlTag s p0) i.2
          sentVer := tset 0 s.port.sentVer p0 i.1 } }
      else
        { s1 with port := { s1.port with
          telPrev := s.port.telPrev ||| 2 ^ 31
          telRepeat := satAdd 16 s.port.telRepeat 1
          telNrdy := if ready then s.port.telNrdy else satAdd 16 s.port.telNrdy 32 } })

/-- TEL_SELECT_RISE: a word cut short is not sent (R297). -/
def execTelSelectRise (bits : Nat) (notReady : Bool) (s : State) : Out :=
  .next (if ¬ s.port.telOn then s
    else { s with port := { s.port with
      telOn := false, tlNew := false
      telShort := if bits = 0 then s.port.telShort else satAdd 8 s.port.telShort 1
      telNrdy := if notReady ∧ ¬ cpRdy s then satAdd 16 s.port.telNrdy (bits % 32) else s.port.telNrdy } })

/-- TELEMETRY_STATE_UPDATE: the supervisor writes the STATE item, outside its pauses. -/
def execTelemetryStateUpdate (s : State) : Out := .next (if s.sys.rdy then putItem 7 (stateItem s) s else s)

end Sys2Proof.Machine
end

