-- ==== Sys2Proof/Machine/Dispatch.lean ====
section
/-! DEFINITION. One arm for each command: a direct call of its meaning. -/

namespace Sys2Proof.Machine

def exec (i : Instr) (s : State) : Host.Outcome State Fault Refusal :=
  match i with
  | .resetnAssert => Sys2Proof.Machine.execResetnAssert s
  | .powerOnReset => Sys2Proof.Machine.execPowerOnReset s
  | .resetnRelease role id bootSrc tbl => Sys2Proof.Machine.execResetnRelease role id bootSrc tbl s
  | .bootVerifyComplete sigA tagA sigB tagB => Sys2Proof.Machine.execBootVerifyComplete sigA tagA sigB tagB s
  | .calStoreLoad => Sys2Proof.Machine.execCalStoreLoad s
  | .nop q => Sys2Proof.Machine.execNop q s
  | .ident q => Sys2Proof.Machine.execIdent q s
  | .getStatus q => Sys2Proof.Machine.execGetStatus q s
  | .setParam q => Sys2Proof.Machine.execSetParam q s
  | .getParam q => Sys2Proof.Machine.execGetParam q s
  | .commit q => Sys2Proof.Machine.execCommit q s
  | .discard q => Sys2Proof.Machine.execDiscard q s
  | .readReg q => Sys2Proof.Machine.execReadReg q s
  | .writeReg q => Sys2Proof.Machine.execWriteReg q s
  | .irqPendClear q => Sys2Proof.Machine.execIrqPendClear q s
  | .hkbufRdWrite q => Sys2Proof.Machine.execHkbufRdWrite q s
  | .telemetryListWrite q => Sys2Proof.Machine.execTelemetryListWrite q s
  | .state q => Sys2Proof.Machine.execState q s
  | .power q => Sys2Proof.Machine.execPower q s
  | .laneState q => Sys2Proof.Machine.execLaneState q s
  | .timeSet q => Sys2Proof.Machine.execTimeSet q s
  | .calStart q => Sys2Proof.Machine.execCalStart q s
  | .calStatus q => Sys2Proof.Machine.execCalStatus q s
  | .hkSelfcal q => Sys2Proof.Machine.execHkSelfcal q s
  | .hkInject q => Sys2Proof.Machine.execHkInject q s
  | .steerMode q => Sys2Proof.Machine.execSteerMode q s
  | .steerMove q => Sys2Proof.Machine.execSteerMove q s
  | .archMount q => Sys2Proof.Machine.execArchMount q s
  | .archStart q => Sys2Proof.Machine.execArchStart q s
  | .archStop q => Sys2Proof.Machine.execArchStop q s
  | .archStatus q => Sys2Proof.Machine.execArchStatus q s
  | .updBegin q => Sys2Proof.Machine.execUpdBegin q s
  | .updData q => Sys2Proof.Machine.execUpdData q s
  | .updEnd q sigOk => Sys2Proof.Machine.execUpdEnd q sigOk s
  | .updActivate q => Sys2Proof.Machine.execUpdActivate q s
  | .updConfirm q => Sys2Proof.Machine.execUpdConfirm q s
  | .updStatus q => Sys2Proof.Machine.execUpdStatus q s
  | .recoverSelect q => Sys2Proof.Machine.execRecoverSelect q s
  | .faultRead q => Sys2Proof.Machine.execFaultRead q s
  | .faultClear q => Sys2Proof.Machine.execFaultClear q s
  | .cascEnum q => Sys2Proof.Machine.execCascEnum q s
  | .cpSelectFall sckHigh => Sys2Proof.Machine.execCpSelectFall sckHigh s
  | .status edges => Sys2Proof.Machine.execStatus edges s
  | .write bytes => Sys2Proof.Machine.execWrite bytes s
  | .read loads => Sys2Proof.Machine.execRead loads s
  | .unknownAction a => Sys2Proof.Machine.execUnknownAction a s
  | .cpSelectRise bits val => Sys2Proof.Machine.execCpSelectRise bits val s
  | .cmdStallTimeout bits val => Sys2Proof.Machine.execCmdStallTimeout bits val s
  | .selectCollision cmdLow bits val => Sys2Proof.Machine.execSelectCollision cmdLow bits val s
  | .telSelectFall sckHigh => Sys2Proof.Machine.execTelSelectFall sckHigh s
  | .telemetryWord ready => Sys2Proof.Machine.execTelemetryWord ready s
  | .telSelectRise bits notReady => Sys2Proof.Machine.execTelSelectRise bits notReady s
  | .telemetryStateUpdate => Sys2Proof.Machine.execTelemetryStateUpdate s
  | .indexCrossing t => Sys2Proof.Machine.execIndexCrossing t s
  | .fsyncEdge rising t => Sys2Proof.Machine.execFsyncEdge rising t s
  | .frameLimitExpiry t => Sys2Proof.Machine.execFrameLimitExpiry t s
  | .boundaryGapOpen t => Sys2Proof.Machine.execBoundaryGapOpen t s
  | .tokenArrival d => Sys2Proof.Machine.execTokenArrival d s
  | .tokenAck => Sys2Proof.Machine.execTokenAck s
  | .gapEnd t => Sys2Proof.Machine.execGapEnd t s
  | .safePendingApply => Sys2Proof.Machine.execSafePendingApply s
  | .codeStep => Sys2Proof.Machine.execCodeStep s
  | .positionCrossing t => Sys2Proof.Machine.execPositionCrossing t s
  | .preFireGateOpen sid => Sys2Proof.Machine.execPreFireGateOpen sid s
  | .dcrLatch sid cur => Sys2Proof.Machine.execDcrLatch sid cur s
  | .fireEdge sid j => Sys2Proof.Machine.execFireEdge sid j s
  | .firePulseEnd e => Sys2Proof.Machine.execFirePulseEnd e s
  | .amberEnd sid above => Sys2Proof.Machine.execAmberEnd sid above s
  | .startAcceptClose sid j => Sys2Proof.Machine.execStartAcceptClose sid j s
  | .listenWindowEnd sid => Sys2Proof.Machine.execListenWindowEnd sid s
  | .rangeEvaluate sid peaks => Sys2Proof.Machine.execRangeEvaluate sid peaks s
  | .rangeApplyIdle c => Sys2Proof.Machine.execRangeApplyIdle c s
  | .velocityEstimate => Sys2Proof.Machine.execVelocityEstimate s
  | .dwellSubintervalRoll => Sys2Proof.Machine.execDwellSubintervalRoll s
  | .protectiveFault src inst detail => Sys2Proof.Machine.execProtectiveFault src inst detail s
  | .referenceLost => Sys2Proof.Machine.execReferenceLost s
  | .trigger c t => Sys2Proof.Machine.execTrigger c t s
  | .zoneEventService c => Sys2Proof.Machine.execZoneEventService c s
  | .zoneHoldExpiry p => Sys2Proof.Machine.execZoneHoldExpiry p s
  | .startTrigger n t => Sys2Proof.Machine.execStartTrigger n t s
  | .saturationAssert c t => Sys2Proof.Machine.execSaturationAssert c t s
  | .stuckHighTimeout c => Sys2Proof.Machine.execStuckHighTimeout c s
  | .indigoRequest t => Sys2Proof.Machine.execIndigoRequest t s
  | .calibrationParkRequest c anchor sid t => Sys2Proof.Machine.execCalibrationParkRequest c anchor sid t s
  | .slotBoundaryDecision b => Sys2Proof.Machine.execSlotBoundaryDecision b s
  | .parkInstant b => Sys2Proof.Machine.execParkInstant b s
  | .ringRelinkRetire c b => Sys2Proof.Machine.execRingRelinkRetire c b s
  | .samplerFillDone b => Sys2Proof.Machine.execSamplerFillDone b s
  | .conversionCycleStart k => Sys2Proof.Machine.execConversionCycleStart k s
  | .rampEnd cells => Sys2Proof.Machine.execRampEnd cells s
  | .segmentsRejoin => Sys2Proof.Machine.execSegmentsRejoin s
  | .windowHandoff b => Sys2Proof.Machine.execWindowHandoff b s
  | .stackedWindowEnter c n => Sys2Proof.Machine.execStackedWindowEnter c n s
  | .engineTakeTask k => Sys2Proof.Machine.execEngineTakeTask k s
  | .steal k => Sys2Proof.Machine.execSteal k s
  | .windowTaskDone k => Sys2Proof.Machine.execWindowTaskDone k s
  | .finishTaskCreate sid c => Sys2Proof.Machine.execFinishTaskCreate sid c s
  | .finishTaskEnter k => Sys2Proof.Machine.execFinishTaskEnter k s
  | .finishTaskDone k => Sys2Proof.Machine.execFinishTaskDone k s
  | .groupRelease => Sys2Proof.Machine.execGroupRelease s
  | .releaseHorizon => Sys2Proof.Machine.execReleaseHorizon s
  | .eccSingle k m => Sys2Proof.Machine.execEccSingle k m s
  | .eccDouble k m readers => Sys2Proof.Machine.execEccDouble k m readers s
  | .engineReloadDone k => Sys2Proof.Machine.execEngineReloadDone k s
  | .slateMarkReady ver => Sys2Proof.Machine.execSlateMarkReady ver s
  | .spillResume => Sys2Proof.Machine.execSpillResume s
  | .stationMerge => Sys2Proof.Machine.execStationMerge s
  | .calTempReadDone g => Sys2Proof.Machine.execCalTempReadDone g s
  | .calPhaseComplete g => Sys2Proof.Machine.execCalPhaseComplete g s
  | .calPhaseTimeout g => Sys2Proof.Machine.execCalPhaseTimeout g s
  | .calStoreInterval => Sys2Proof.Machine.execCalStoreInterval s
  | .ditherFreePulse g => Sys2Proof.Machine.execDitherFreePulse g s
  | .ditherGatedPulse g => Sys2Proof.Machine.execDitherGatedPulse g s
  | .gainTestStep g step => Sys2Proof.Machine.execGainTestStep g step s
  | .hkPassTrigger => Sys2Proof.Machine.execHkPassTrigger s
  | .hkTimerTick => Sys2Proof.Machine.execHkTimerTick s
  | .hkPwmEdge x falling => Sys2Proof.Machine.execHkPwmEdge x falling s
  | .hkEntrySwitch v0 => Sys2Proof.Machine.execHkEntrySwitch v0 s
  | .hkEntryDelayEnd => Sys2Proof.Machine.execHkEntryDelayEnd s
  | .hkRefWaitTimeout => Sys2Proof.Machine.execHkRefWaitTimeout s
  | .refrdyChange r set => Sys2Proof.Machine.execRefrdyChange r set s
  | .hkConversionEnd raw ovr => Sys2Proof.Machine.execHkConversionEnd raw ovr s
  | .hkbufWrite => Sys2Proof.Machine.execHkbufWrite s
  | .hkPauseStart => Sys2Proof.Machine.execHkPauseStart s
  | .hkPauseEnd cycles => Sys2Proof.Machine.execHkPauseEnd cycles s
  | .hkBlankEdge level cycles => Sys2Proof.Machine.execHkBlankEdge level cycles s
  | .hkBlankMaxAbort => Sys2Proof.Machine.execHkBlankMaxAbort s
  | .hkInjectHead => Sys2Proof.Machine.execHkInjectHead s
  | .selfcalStart => Sys2Proof.Machine.execSelfcalStart s
  | .selfcalEnd factors temp => Sys2Proof.Machine.execSelfcalEnd factors temp s
  | .hkBgTempMeasure temp => Sys2Proof.Machine.execHkBgTempMeasure temp s
  | .hkBgCalSlotEnd val => Sys2Proof.Machine.execHkBgCalSlotEnd val s
  | .excMonitorDeclare src short => Sys2Proof.Machine.execExcMonitorDeclare src short s
  | .burnoutPulseEnd v1 => Sys2Proof.Machine.execBurnoutPulseEnd v1 s
  | .encoderEdge x a b => Sys2Proof.Machine.execEncoderEdge x a b s
  | .encoderIndex x => Sys2Proof.Machine.execEncoderIndex x s
  | .ssiFrameComplete x reading const => Sys2Proof.Machine.execSsiFrameComplete x reading const s
  | .cmpReload x => Sys2Proof.Machine.execCmpReload x s
  | .loopSample x => Sys2Proof.Machine.execLoopSample x s
  | .driverFault x => Sys2Proof.Machine.execDriverFault x s
  | .linkStateTransition => Sys2Proof.Machine.execLinkStateTransition s
  | .linkStageTimeout => Sys2Proof.Machine.execLinkStageTimeout s
  | .linkLockLoss => Sys2Proof.Machine.execLinkLockLoss s
  | .linkDownRetry => Sys2Proof.Machine.execLinkDownRetry s
  | .laneLockLoss k => Sys2Proof.Machine.execLaneLockLoss k s
  | .invalidBlock k => Sys2Proof.Machine.execInvalidBlock k s
  | .train k blk => Sys2Proof.Machine.execTrain k blk s
  | .align k blk => Sys2Proof.Machine.execAlign k blk s
  | .credit vs cum => Sys2Proof.Machine.execCredit vs cum s
  | .laneErr k count => Sys2Proof.Machine.execLaneErr k count s
  | .cargoFrameReceive k bytes => Sys2Proof.Machine.execCargoFrameReceive k bytes s
  | .cargoFrameSend => Sys2Proof.Machine.execCargoFrameSend s
  | .creditSend => Sys2Proof.Machine.execCreditSend s
  | .alignMarkerSend => Sys2Proof.Machine.execAlignMarkerSend s
  | .refreshBurst => Sys2Proof.Machine.execRefreshBurst s
  | .teleFrameBuild => Sys2Proof.Machine.execTeleFrameBuild s
  | .partFrameFlush vs => Sys2Proof.Machine.execPartFrameFlush vs s
  | .txSleepEntry k => Sys2Proof.Machine.execTxSleepEntry k s
  | .rxDeepWake k => Sys2Proof.Machine.execRxDeepWake k s
  | .apPerstTimer => Sys2Proof.Machine.execApPerstTimer s
  | .pcieLinkUp gen width l0sCap => Sys2Proof.Machine.execPcieLinkUp gen width l0sCap s
  | .pcieLinkTimeout => Sys2Proof.Machine.execPcieLinkTimeout s
  | .controllerReady ready => Sys2Proof.Machine.execControllerReady ready s
  | .nvmeCompletion cid ok dnr data => Sys2Proof.Machine.execNvmeCompletion cid ok dnr data s
  | .nvmeCommandTimeout cid => Sys2Proof.Machine.execNvmeCommandTimeout cid s
  | .pcieLinkDown => Sys2Proof.Machine.execPcieLinkDown s
  | .archiveRecordStage => Sys2Proof.Machine.execArchiveRecordStage s
  | .chunkSealTimer ring => Sys2Proof.Machine.execChunkSealTimer ring s
  | .checkpointTimer => Sys2Proof.Machine.execCheckpointTimer s
  | .healthReadTimer => Sys2Proof.Machine.execHealthReadTimer s
  | .heartbeatSend => Sys2Proof.Machine.execHeartbeatSend s
  | .heartbeat frame ringSeq crcOk => Sys2Proof.Machine.execHeartbeat frame ringSeq crcOk s
  | .sched ev crcOk t => Sys2Proof.Machine.execSched ev crcOk t s
  | .anchor t => Sys2Proof.Machine.execAnchor t s
  | .cross => Sys2Proof.Machine.execCross s
  | .frameEnd t => Sys2Proof.Machine.execFrameEnd t s
  | .pkt src dst bytes last crcOk => Sys2Proof.Machine.execPkt src dst bytes last crcOk s
  | .fault sender src crcOk => Sys2Proof.Machine.execFault sender src crcOk s
  | .loss sender crcOk => Sys2Proof.Machine.execLoss sender crcOk s
  | .enum entries crcOk => Sys2Proof.Machine.execEnum entries crcOk s
  | .ack sender kind crcOk => Sys2Proof.Machine.execAck sender kind crcOk s
  | .ringLossSlave => Sys2Proof.Machine.execRingLossSlave s
  | .heartbeatTimeout => Sys2Proof.Machine.execHeartbeatTimeout s
  | .breakAtTimeout => Sys2Proof.Machine.execBreakAtTimeout s
  | .enumTimeout => Sys2Proof.Machine.execEnumTimeout s
  | .timeSetAckTimeout => Sys2Proof.Machine.execTimeSetAckTimeout s
  | .timeSetLoad t => Sys2Proof.Machine.execTimeSetLoad t s
  | .forwardTimeout => Sys2Proof.Machine.execForwardTimeout s
  | .domainSwitchStep => Sys2Proof.Machine.execDomainSwitchStep s
  | .domainUp d => Sys2Proof.Machine.execDomainUp d s
  | .quarterDrainEnd qt => Sys2Proof.Machine.execQuarterDrainEnd qt s
  | .pllLockTimeout => Sys2Proof.Machine.execPllLockTimeout s
  | .clockLost c => Sys2Proof.Machine.execClockLost c s
  | .clockRestored c => Sys2Proof.Machine.execClockRestored c s
  | .railFlagUpdate vsl vap vhk => Sys2Proof.Machine.execRailFlagUpdate vsl vap vhk s
  | .updEraseStep => Sys2Proof.Machine.execUpdEraseStep s
  | .updEndComplete => Sys2Proof.Machine.execUpdEndComplete s
  | .activationCheckDone sigOk tagOk => Sys2Proof.Machine.execActivationCheckDone sigOk tagOk s
  | .supervisorRestart => Sys2Proof.Machine.execSupervisorRestart s
  | .warmStart => Sys2Proof.Machine.execWarmStart s
  | .cascadeCheckTimeout => Sys2Proof.Machine.execCascadeCheckTimeout s
  | .go => Sys2Proof.Machine.execGo s
  | .goTimeout => Sys2Proof.Machine.execGoTimeout s
  | .confirmTimerExpiry => Sys2Proof.Machine.execConfirmTimerExpiry s
  | .fallback => Sys2Proof.Machine.execFallback s
  | .bootHeaderErase copy => Sys2Proof.Machine.execBootHeaderErase copy s
  | .faultClassify src inst detail => Sys2Proof.Machine.execFaultClassify src inst detail s
  | .logBudgetRefill => Sys2Proof.Machine.execLogBudgetRefill s
  | .lockstepMismatch => Sys2Proof.Machine.execLockstepMismatch s
  | .pageBufferFlush => Sys2Proof.Machine.execPageBufferFlush s
  | .flashStatusPoll done good => Sys2Proof.Machine.execFlashStatusPoll done good s
  | .flashOpTimeout => Sys2Proof.Machine.execFlashOpTimeout s
  | .flashEraseRegister off size64 => Sys2Proof.Machine.execFlashEraseRegister off size64 s
  | .windowReadSuspend off => Sys2Proof.Machine.execWindowReadSuspend off s
  | .comparatorRearm c => Sys2Proof.Machine.execComparatorRearm c s
  | .saturationRecovery c => Sys2Proof.Machine.execSaturationRecovery c s
  | .blockLockLost k => Sys2Proof.Machine.execBlockLockLost k s
  | .rxAdaptationComplete => Sys2Proof.Machine.execRxAdaptationComplete s
  | .controllerFatalStatus => Sys2Proof.Machine.execControllerFatalStatus s
  | .ringReceiverLockLoss => Sys2Proof.Machine.execRingReceiverLockLoss s
  | .powerOnResetRelease => Sys2Proof.Machine.execPowerOnResetRelease s
  | .spillComplete => Sys2Proof.Machine.execSpillComplete s
  | .unknownOpcode opc q => Sys2Proof.Machine.execUnknownOpcode opc q s

end Sys2Proof.Machine
end

