-- ==== Sys2Proof/Safety.lean ====
section
/-!
DEFINITION. What a run must keep: the form of the parameter copies, of the flash and of the queue, and what SAFE means
at the pins.
-/

namespace Sys2Proof.Machine

/-! ### What a command leaves as it was -/

/-- The parts of the state by which a frame is stated: the records of State, with the fields of some that the spec gives
a rule of their own set apart (a record's own part is all of it but those). -/
inductive StatePart where
  | pending
  /-- DEVTIME and the time since power-up -/
  | time
  /-- the counter of free values (log entry 2) -/
  | free
  | devState
  /-- the state resumed after RECOVERY and a warm BOOT -/
  | resume
  /-- IRQ_PEND -/
  | irq
  | sys
  | cfg
  /-- the protective inhibit (R29) -/
  | inhibit
  /-- shots in flight -/
  | shots
  /-- FIRE outputs, per-emitter counters and schedule -/
  | emits
  /-- the counters of the frame header -/
  | counts
  | fire
  | fronts
  | zone
  | samp
  | eng
  | greys
  | stk
  | cal
  | hk
  | axA
  | axB
  /-- replies that wait for the host -/
  | replies
  /-- the telemetry mirror -/
  | items
  | port
  /-- flash content -/
  | flashBytes
  /-- the flash operation under way -/
  | flashOp
  | flash
  | link
  | arch
  | casc
  | pwr
  | upd
  /-- the event log, its budget and its counters -/
  | log
  /-- the fault counts and LASTING marks -/
  | faults
  /-- fault events not yet classified -/
  | fltQueue
  deriving DecidableEq, Repr

/-- Two states agree on a part. -/
def StatePart.same : StatePart → State → State → Prop
  | .pending, s, t => t.pending = s.pending
  | .time, s, t => t.sys.now = s.sys.now ∧ t.sys.cyc = s.sys.cyc
  | .free, s, t => t.sys.free = s.sys.free
  | .devState, s, t => t.sys.devState = s.sys.devState
  | .resume, s, t => t.sys.resume = s.sys.resume
  | .irq, s, t => t.sys.irqPend = s.sys.irqPend
  | .sys, s, t => t.sys = { s.sys with
      now := t.sys.now, cyc := t.sys.cyc, free := t.sys.free, devState := t.sys.devState, resume := t.sys.resume,
      irqPend := t.sys.irqPend }
  | .cfg, s, t => t.cfg = s.cfg
  | .inhibit, s, t => t.fire.faultInh = s.fire.faultInh
  | .shots, s, t => t.fire.shots = s.fire.shots
  | .emits, s, t => t.fire.emits = s.fire.emits
  | .counts, s, t => t.fire.cnt = s.fire.cnt
  | .fire, s, t => t.fire = { s.fire with
      faultInh := t.fire.faultInh, shots := t.fire.shots, emits := t.fire.emits, cnt := t.fire.cnt }
  | .fronts, s, t => t.fronts = s.fronts
  | .zone, s, t => t.zone = s.zone
  | .samp, s, t => t.samp = s.samp
  | .eng, s, t => t.eng = s.eng
  | .greys, s, t => t.greys = s.greys
  | .stk, s, t => t.stk = s.stk
  | .cal, s, t => t.cal = s.cal
  | .hk, s, t => t.hk = s.hk
  | .axA, s, t => t.axA = s.axA
  | .axB, s, t => t.axB = s.axB
  | .replies, s, t => t.port.replies = s.port.replies
  | .items, s, t => t.port.items = s.port.items
  | .port, s, t => t.port = { s.port with replies := t.port.replies, items := t.port.items }
  | .flashBytes, s, t => t.flash.bytes = s.flash.bytes
  | .flashOp, s, t => t.flash.op = s.flash.op
  | .flash, s, t => t.flash = { s.flash with bytes := t.flash.bytes, op := t.flash.op }
  | .link, s, t => t.link = s.link
  | .arch, s, t => t.arch = s.arch
  | .casc, s, t => t.casc = s.casc
  | .pwr, s, t => t.pwr = s.pwr
  | .upd, s, t => t.upd = s.upd
  | .log, s, t => t.flt.log = s.flt.log ∧ t.flt.logPos = s.flt.logPos ∧ t.flt.logSeq = s.flt.logSeq ∧
      t.flt.logDrop = s.flt.logDrop ∧ t.flt.budget = s.flt.budget
  | .faults, s, t => t.flt.insts = s.flt.insts
  | .fltQueue, s, t => t.flt.queue = s.flt.queue

/-- From `s` to `t` nothing but the parts of `l` has changed. -/
structure Only (l : List StatePart) (s t : State) : Prop where
  same : ∀ p, p ∉ l → p.same s t

/-- The command completes: it answers a next state that differs from `s` in nothing but the parts of `l`, and of which
`P` holds. -/
def Completes (c : Instr) (s : State) (l : List StatePart) (P : State → Prop) : Prop :=
  ∃ t, exec c s = .next t ∧ Only l s t ∧ P t

/-! ### Requests -/

/-- Nothing waits at the packet ports: the command buffer is empty, no reply waits, no request is forwarded and no CTRL
frame of the host is held. -/
def portsQuiet (s : State) : Prop := s.port.buf = [] ∧ s.port.replies = [] ∧ s.casc.fwd = [] ∧ s.link.rxQ = []

/-- A request of the host reaches the meaning of opcode `opc` on this device at once: nothing waits before it, the
interpreter may take it, its CRC is right, its DEST is this device, the opcode runs in the device's state, and no
activation is under way (R289, R314, R315, R324, R435). -/
def Served (opc : Nat) (q : Req) (s : State) : Prop :=
  portsQuiet s ∧ canServe s = true ∧ q.org ≠ .ring ∧ q.crcOk = true ∧ q.dest.toNat % 16 = devIdx s ∧
    (if s.sys.devState = .recovery then inRecovery opc = true else opc ≠ 0x66) ∧ s.upd.act = 0

/-- The reply to a request: status and payload under the request's SEQ and this device's index (R312). -/
def replyOf (opc : Nat) (q : Req) (st : Nat) (pay : List Word) (s : State) : Reply :=
  ⟨q.org, BitVec.ofNat 8 opc, q.seq, BitVec.ofNat 8 st, BitVec.ofNat 8 (devIdx s), pay⟩

/-- From `s` to `t` the host got this reply and no other; an OK reply under NOREPLY does not leave (R312). -/
def Answered (opc : Nat) (q : Req) (st : Nat) (pay : List Word) (s t : State) : Prop :=
  t.port.replies = if st = 0 ∧ q.flags.toNat % 2 = 1 then s.port.replies else s.port.replies ++ [replyOf opc q st pay s]

/-- Opcode and request of a command that carries one; the three register writes are WRITE_REG requests. -/
def requestOf : Instr → Option (Nat × Req)
  | .nop q => some (0x00, q)
  | .ident q => some (0x01, q)
  | .getStatus q => some (0x02, q)
  | .setParam q => some (0x10, q)
  | .getParam q => some (0x11, q)
  | .commit q => some (0x12, q)
  | .discard q => some (0x13, q)
  | .readReg q => some (0x14, q)
  | .writeReg q => some (0x15, q)
  | .state q => some (0x20, q)
  | .power q => some (0x21, q)
  | .laneState q => some (0x22, q)
  | .timeSet q => some (0x23, q)
  | .calStart q => some (0x30, q)
  | .calStatus q => some (0x31, q)
  | .hkSelfcal q => some (0x32, q)
  | .hkInject q => some (0x33, q)
  | .steerMode q => some (0x40, q)
  | .steerMove q => some (0x41, q)
  | .archMount q => some (0x50, q)
  | .archStart q => some (0x51, q)
  | .archStop q => some (0x52, q)
  | .archStatus q => some (0x53, q)
  | .updBegin q => some (0x60, q)
  | .updData q => some (0x61, q)
  | .updEnd q _ => some (0x62, q)
  | .updActivate q => some (0x63, q)
  | .updConfirm q => some (0x64, q)
  | .updStatus q => some (0x65, q)
  | .recoverSelect q => some (0x66, q)
  | .faultRead q => some (0x70, q)
  | .faultClear q => some (0x71, q)
  | .cascEnum q => some (0x80, q)
  | _ => none

/-- The request is answered with this status and payload, and but for the reply nothing outside `l` changes. -/
def Answers (c : Instr) (opc : Nat) (q : Req) (st : Nat) (pay : List Word) (s : State) (l : List StatePart)
    (P : State → Prop) : Prop := Completes c s (.replies :: l) fun t => Answered opc q st pay s t ∧ P t

/-- The request is turned away with an error status and no payload; nothing else changes. -/
def Turned (c : Instr) (opc : Nat) (q : Req) (st : Nat) (s : State) : Prop := Answers c opc q st [] s [] fun _ => True

/-- A request of an opcode's own; the three register writes are WRITE_REG requests at an address of theirs. -/
def plainRequest (c : Instr) : Option (Nat × Req) :=
  match c with
  | .irqPendClear _ | .hkbufRdWrite _ | .telemetryListWrite _ => none
  | _ => requestOf c

/-- LEN fits the opcode (R319, R321-R323). -/
def lenFits (opc : Nat) (p : List Word) : Bool :=
  let n := p.length
  if [0x00, 0x01, 0x02, 0x12, 0x13, 0x31, 0x32, 0x53, 0x62, 0x63, 0x64, 0x65, 0x80].contains opc then decide (n = 0)
  else if [0x20, 0x21, 0x22, 0x30, 0x40, 0x51, 0x52, 0x66, 0x71].contains opc then decide (n = 1)
  else if [0x11, 0x14, 0x23, 0x50, 0x70].contains opc then decide (n = 2)
  else if opc = 0x10 then decide (3 ≤ n ∧ n ≤ 1024)
  else if opc = 0x15 ∨ opc = 0x61 then decide (2 ≤ n ∧ n ≤ 1024)
  else if opc = 0x33 then decide (n = 4)
  else if opc = 0x41 then decide (n = 3) || (decide (n = 2) && !bit (p.getD 0 0) 30)
  else decide (n = 3)

/-! ### Steering and protective faults -/

/-- The part that holds an axis. -/
def axPart (x : Nat) : StatePart := if x = 0 then .axA else .axB

/-- What the entry to SAFE may change: both axes, edges not yet driven with all that belongs to their shots, the device
state, the log, the ring and the pending requests that it ends. -/
def protParts : List StatePart :=
  [.axA, .axB, .casc, .counts, .devState, .emits, .fire, .flash, .fltQueue, .free, .fronts, .hk, .inhibit, .irq, .log, .replies,
   .resume, .samp, .shots, .stk, .sys]

/-- From `s` to `t` a protective fault was declared: fire is inhibited, and from IDLE, ARMED, RUN and HOLD the device is in
SAFE (R101). -/
def safeDeclared (s t : State) : Prop := t.fire.faultInh = true ∧ (safeable (opState s) = true → opState t = .safe)

/-! ### Forms that a run keeps -/

/-- Every word stored in a copy of the parameter blocks has its RO and reserved bits as they read after reset, so no
command ever stored into one (R8, R10). -/
def copyWf (c : Tab (Tab Word)) : Prop := ∀ p ∈ c, ∀ w ∈ p.2, w.2 = storedWord p.1 w.1 w.2

/-- The parameter copies of a state: ACTIVE, SLATE, PENDING, the set of the boundary under way, the set held for the
boundary after the next, and what CORE work of earlier epochs still uses. -/
def cfgWf (c : Cfg) : Prop :=
  copyWf c.active ∧ copyWf c.slate ∧ copyWf c.pend ∧ copyWf c.fixed ∧ (∀ h, c.held = some h → copyWf h.1) ∧ ∀ p ∈ c.old, copyWf p.2

/-- Flash content is in its canonical form: offsets strictly rising, no byte listed that reads as erased. -/
def flashWf (s : State) : Bool := twf (0xFF : Byte) none s.flash.bytes

/-- Every waiting command names only objects the device has. -/
def queueWf (s : State) : Bool := s.pending.all Instr.wf

/-- The device is safe at its pins: no FIRE output is high and no ARM output is active. -/
def pinsQuiet (s : State) : Prop := (∀ e, firePin s e = false) ∧ ∀ n, armPin s n = false

end Sys2Proof.Machine
end

