-- ==== Sys2Proof/Certificates/Slice0/Obligations.lean ====
section
/-!
DEFINITION. The statements for the provers. `Completes c s l P` says that command `c` answers a next state which differs
from `s` in nothing but the parts `l`, and of which `P` holds.
-/

open Sys2Proof Sys2Proof.Machine

/-- A step takes the command at the front of the queue, or lets a nanosecond pass when none waits -/
def Obligations.StepTakesTheFrontCommand : Prop :=
  (∀ s c r, s.pending = c :: r → step s = exec c { s with pending := r }) ∧
  (∀ s, s.pending = [] → ∃ t, step s = .next t ∧ Only [.time] s t ∧ t.sys.now = s.sys.now + 5 ∧
    t.sys.cyc = if devRuns s then s.sys.cyc + 5 else s.sys.cyc)

/-- A step that goes on removes the front command from the queue and nothing else: no command is lost, repeated or reordered -/
def Obligations.EveryStepTakesExactlyOneCommand : Prop :=
  ∀ s c r t, s.pending = c :: r → step s = .next t → t.pending = r

/-- Every command that names only objects the device has completes in every state; none is refused -/
def Obligations.WellFormedCommandsNeverStop : Prop :=
  (∀ c s, c.wf = true → ∃ t, exec c s = .next t) ∧
  (∀ c s r, exec c s ≠ .refused r) ∧
  (∀ c s f, exec c s = .fault f → f = .noSuchObject ∧ c.wf = false)

/-- No step ever stores into a read-only or reserved bit of a parameter block: every copy stays as the field maps say -/
def Obligations.CopiesKeepReservedBits : Prop :=
  ∀ s t, cfgWf s.cfg → step s = .next t → cfgWf t.cfg

/-- No step leaves the flash content in a form of its own: offsets stay rising and no erased byte is listed -/
def Obligations.FlashKeepsItsForm : Prop :=
  ∀ s t, flashWf s = true → step s = .next t → flashWf t = true

/-- From SAFE no event of the device leads elsewhere: only STATE, a reset or the boot ROM ends it -/
def Obligations.OnlyTheHostLeavesSafe : Prop :=
  ∀ c s t, s.sys.devState = .safe → exec c s = .next t →
    (match c with
      | .state _ | .recoverSelect _ | .resetnAssert | .powerOnReset | .bootVerifyComplete .. => True
      | _ => t.sys.devState = .safe)

/-- In SAFE, reported or to be resumed, fire stays inhibited: no step reaches SAFE without the inhibit or lifts it there -/
def Obligations.SafeKeepsFireInhibited : Prop :=
  ∀ s t, (opState s = .safe → s.fire.faultInh = true) → step s = .next t → (opState t = .safe → t.fire.faultInh = true)

/-- Right after reset every invariant of the model holds, no output is active and the device reports BOOT -/
def Obligations.ResetMeetsTheInvariants : Prop :=
  cfgWf State.reset.cfg ∧ flashWf State.reset = true ∧ State.reset.pending = [] ∧
  State.reset.sys.devState = .boot ∧ State.reset.sys.resetLow = true ∧ State.reset.pwr.on = [0] ∧
  pinsQuiet State.reset ∧ safenLow State.reset = true ∧ State.reset.flt.budget = 256 ∧
  (∀ id off, off ≠ 0 → rd State.reset id off = resetWord id off ∧ cget State.reset.cfg.slate id off = resetWord id off)

/-- Filtered quadrature edges move P by one and an index sets or checks Z_REF; an illegal edge or a stray index is an encoder loss -/
def Obligations.QuadratureEdgesMoveP : Prop :=
  (∀ s x, x < 2 →
    exec (.encoderEdge x [] []) s = .next s ∧
    (∀ a1 b1 a2 b2 t, a1.length = b1.length → exec (.encoderEdge x a1 b1) s = .next t →
      exec (.encoderEdge x (a1 ++ a2) (b1 ++ b2)) s = exec (.encoderEdge x a2 b2) t) ∧
    (∀ l m, domUp s 19 = false ∨ encSsi (rd s) x = true → exec (.encoderEdge x l m) s = .next s) ∧
    (∀ va vb, domUp s 19 = true → encSsi (rd s) x = false →
      let a := axis s x
      let after := fun (f : PinFilt) (v : Bool) => match f.level with
        | none => PinFilt.mk (some v) 0
        | some l => if v = l ∨ encFilt (rd s) x ≤ f.run then ⟨some v, 0⟩ else ⟨some l, f.run + 1⟩
      let na := after a.encA va
      let nb := after a.encB vb
      let known := a.encA.level ≠ none ∧ a.encB.level ≠ none
      (¬ (known ∧ na.level ≠ a.encA.level ∧ nb.level ≠ a.encB.level) → Completes (.encoderEdge x [va] [vb]) s [axPart x] fun t =>
        axis t x = { a with
          encA := na, encB := nb
          p := if ¬ known then a.p
            else if na.level = a.encA.level ∧ nb.level = a.encB.level then wrapI 32 a.p
            else if (na.level = a.encB.level.map (!·) ∧ nb.level = a.encA.level) = (encDir (rd s) x = false)
            then wrapI 32 (a.p + 1) else wrapI 32 (a.p - 1) }) ∧
      (known ∧ na.level ≠ a.encA.level ∧ nb.level ≠ a.encB.level →
        Completes (.encoderEdge x [va] [vb]) s (if a.mode = .off then [axPart x] else protParts) fun t =>
        (axis t x).encA = na ∧ (axis t x).encB = nb ∧
        (axis t x).encErr = min 65535 (a.encErr + 1) ∧ (axis t x).cause = 3 ∧ (axis t x).p = a.p ∧
        (a.mode ≠ .off → safeDeclared s t ∧ (axis t x).faultActive = true)))) ∧
  (∀ s x v, x < 2 →
    (∀ l1 l2 t, exec (.encoderIndex (x, l1)) s = .next t → exec (.encoderIndex (x, l1 ++ l2)) s = exec (.encoderIndex (x, l2)) t) ∧
    (∀ l, domUp s 19 = false ∨ encSsi (rd s) x = true → exec (.encoderIndex (x, l)) s = .next s) ∧
    (domUp s 19 = true → encSsi (rd s) x = false →
      let a := axis s x
      let z : PinFilt := match a.encZ.level with
        | none => ⟨some v, 0⟩
        | some l => if v = l ∨ encFilt (rd s) x ≤ a.encZ.run then ⟨some v, 0⟩ else ⟨some l, a.encZ.run + 1⟩
      let index := a.encZ.level = some false ∧ z.level = some true ∧
        (zQual (rd s) x = true → a.encA.level = some true ∧ a.encB.level = some true)
      let c : Int := (cpr (rd s) x : Nat)
      let dev := (a.p - a.zRef + c / 2) % c - c / 2
      if index ∧ a.idxFirst = true then
        Completes (.encoderIndex (x, [v])) s [axPart x] fun t =>
          axis t x = { a with encZ := z, zRef := a.p, homed := true, idxFirst := false }
      else if ¬ index ∨ indexTol (rd s) x = 0 ∨ dev.natAbs ≤ indexTol (rd s) x then
        Completes (.encoderIndex (x, [v])) s [axPart x] fun t => axis t x = { a with encZ := z }
      else Completes (.encoderIndex (x, [v])) s (if a.mode = .off then [axPart x] else protParts) fun t =>
        (axis t x).cause = 3 ∧ (axis t x).p = a.p ∧ (axis t x).encZ = z ∧
        (a.mode = .off → (axis t x).encErr = min 65535 (a.encErr + 1)) ∧
        (a.mode ≠ .off → safeDeclared s t ∧ (axis t x).faultActive = true)))

/-- An SSI reading moves P by the signed difference modulo 2^SSI_BITS; a jump or a constant line is an encoder loss -/
def Obligations.SsiReadingsUnwrapIntoP : Prop :=
  ∀ s x reading const, x < 2 → domUp s 19 = true → encSsi (rd s) x = true →
    let a := axis s x
    let bits := ssiBits (rd s) x
    let v := if ssiGray (rd s) x = true then ofGray bits (reading % 2 ^ bits) else reading % 2 ^ bits
    ∃ d : Int, ((2 ^ bits : Nat) : Int) ∣ (v : Int) - (a.ssiLast.getD 0 : Nat) - d ∧
      -((2 ^ (bits - 1) : Nat) : Int) ≤ d ∧ d < ((2 ^ (bits - 1) : Nat) : Int) ∧
      let lost := const = true ∨ (a.ssiLast.isSome = true ∧ 2 ^ (bits - 2) < d.natAbs)
      Completes (.ssiFrameComplete x reading const) s (if ¬ lost ∨ a.mode = .off then [axPart x] else protParts) fun t =>
        (axis t x).p = wrapI 32 (a.p + d) ∧ (axis t x).ssiLast = some v ∧
        (¬ lost → (axis t x).encErr = a.encErr ∧ (axis t x).mode = a.mode) ∧
        (lost → (axis t x).encErr = min 65535 (a.encErr + 1) ∧ (axis t x).cause = 3 ∧ (a.mode ≠ .off → safeDeclared s t))

/-- A reload point loads the computed CMP; every LOOP_N-th latches P and makes a loop sample due -/
def Obligations.ReloadPointsLoadCmp : Prop :=
  ∀ s x, x < 2 →
    let a := axis s x
    let at_ := a.reloadAt + 25 * pwmPer (rd s) x
    if domUp s 19 = true ∧ devRuns s = true then
      Completes (.cmpReload x) s [.time, axPart x] fun t =>
        t.sys.cyc = max s.sys.cyc at_ ∧ t.sys.now = s.sys.now + (at_ - s.sys.cyc) ∧
        axis t x = { a with
          cmp := a.cmpNext.getD a.cmp, cmpNext := none, cmpWas := a.cmp, reloadAt := at_, peak := !a.peak
          reloads := if loopN (rd s) x ≤ a.reloads + 1 then 0 else a.reloads + 1
          due := a.due || decide (loopN (rd s) x ≤ a.reloads + 1)
          pLatch := if loopN (rd s) x ≤ a.reloads + 1 then a.p else a.pLatch }
    else exec (.cmpReload x) s = .next s

/-- A driver fault coasts its axis; every protective fault inhibits fire, withholds the edges not yet driven and enters SAFE -/
def Obligations.ProtectiveFaultsEnterSafe : Prop :=
  (∀ s x, x < 2 → domUp s 19 = true →
    let a := axis s x
    (a.mode = .off → exec (.driverFault x) s = .next s) ∧
    (a.mode ≠ .off → Completes (.driverFault x) s protParts fun t =>
      (axis t x).mode = .off ∧ (axis t x).faultActive = true ∧ (axis t x).cause = 2 ∧
      (axis t x).fltCnt = min 255 (a.fltCnt + 1) ∧ (axis t x).pendMode = none ∧ (axis t x).pendMove = none ∧
      (axis t x).p = a.p ∧ (∃ detail, t.flt.queue = s.flt.queue ++ [(4, x, detail)]) ∧ safeDeclared s t)) ∧
  (∀ s src inst detail, inst < instancesOf src →
    let prot := src = 6 ∨ src = 8 ∨ (src = 7 ∧ isSlave s = true)
    ((prot ∨ src = 0x10) → Completes (.protectiveFault src inst detail) s protParts fun t =>
      safeDeclared s t ∧ (∀ x ∈ t.fire.shots, 0 ∉ x.fate) ∧
      t.flt.queue = (if src = 0x10 then s.flt.queue else s.flt.queue ++ [(src, inst, detail)]) ∧
      (safeable (opState s) = true →
        t.fire.started = false ∧ t.fire.gap = false ∧ t.fire.ending = none ∧ t.fire.velInh = false ∧ t.sys.statePend = false ∧
        (domUp s 19 = true → ∀ x, x < 2 → (axis s x).mode ≠ .off → (axis t x).faultActive = true))) ∧
    ((src = 7 ∧ isSlave s = false) → Completes (.protectiveFault src inst detail) s [.fltQueue] fun t =>
      t.flt.queue = s.flt.queue ++ [(7, inst, detail)]) ∧
    (src = 4 → ((axis s inst).mode = .off ∨ domUp s 19 = false → exec (.protectiveFault src inst detail) s = .next s) ∧
      ((axis s inst).mode ≠ .off → domUp s 19 = true → Completes (.protectiveFault src inst detail) s protParts fun t =>
        (axis t inst).cause = min 3 (max 1 detail) ∧ (axis t inst).faultActive = true ∧ safeDeclared s t)) ∧
    (([1, 2, 3, 5, 9].contains src = true ∨ (0x11 ≤ src ∧ src ≤ 0x13)) → exec (.protectiveFault src inst detail) s = .next s))

/-- A due loop sample takes the mode change and the move that wait, answers the change, and tests the following error -/
def Obligations.LoopSamplesRunTheAxis : Prop :=
  ∀ s x, x < 2 → domUp s 19 = true → (axis s x).due = true →
    let a := axis s x
    let c := if encSsi (axRd s x) x = true then a.p else a.pLatch
    let change := match a.pendMode with | some m => if m.wait = true then none else some m.mode | none => none
    Completes (.loopSample x) s (protParts ++ [.items, .link, .port]) fun t =>
      (∃ f, let b := axSample (axRd s x) x c f a
        if beyond (axRd s x) x b = true ∧ feTime (axRd s x) x ≤ b.feRun then
          (axis t x).cause = 1 ∧ (axis t x).feCnt = min 255 (a.feCnt + 1) ∧ (axis t x).faultActive = true ∧ safeDeclared s t
        else axis t x = b ∧ t.fire.faultInh = s.fire.faultInh ∧ opState t = opState s) ∧
      (change = some .off → (axis t x).mode = .off ∧ (axis t x).w = 0 ∧ (axis t x).u = 0 ∧ (axis t x).due = false) ∧
      (change = some .open ∧ a.pendMove = none →
        (axis t x).mode = .open ∧ (axis t x).w = clampI (-(2 ^ 31 - 1)) (2 ^ 31 - 1) a.w) ∧
      (change = some .position ∧ a.pendMove = none →
        (axis t x).mode = .position ∧ (axis t x).target = c * 65536 ∧ (axis t x).ferr = 0 ∧ (axis t x).due = false) ∧
      (∀ d t2, change = none ∧ a.mode = .open ∧ a.pendMove = some (d, t2) →
        (axis t x).drive = d ∧ (axis t x).pendMove = none ∧
        (axis t x).w = clampI (-(2 ^ 31 - 1)) (2 ^ 31 - 1) (d + blendVal a.rhoV)) ∧
      (∀ m k q, a.pendMode = some ⟨m, false, k, false, some q⟩ ∧ portsQuiet s ∧ q.org ≠ .ring → Answered 0x40 q 0 [] s t)

/-- STEER_MODE and STEER_MOVE are checked in the order of their rules; accepted they wait for a loop sample or a boundary -/
def Obligations.SteeringRequestsAreCheckedThenTaken : Prop :=
  (∀ q s, Served 0x40 q s → q.payload.length = 1 →
      let w := qw q 0
      let x := fld w 31 31
      let n := fld w 30 28
      let m := if n = 1 then AxMode.open else if n = 2 then .velocity else if n = 3 then .position else if n = 4 then .profile else .off
      let limit0 := [rd s, rdNext s].any fun r => [12, 13, 14].any fun k => r (0x70 + x) k == 0
      if 5 ≤ n ∨ ((n = 2 ∨ n = 4) ∧ limit0 = true) then Turned (.steerMode q) 0x40 q 8 s
      else if s.sys.devState = .safe ∧ n ≠ 0 then Turned (.steerMode q) 0x40 q 7 s
      else if domUp s 19 = false then Turned (.steerMode q) 0x40 q 10 s
      else if (axis s x).axFault = true ∧ n ≠ 0 then Turned (.steerMode q) 0x40 q 10 s
      else if bit w 27 = true ∧ [DevState.armed, .run, .hold].contains s.sys.devState = true then
        Answers (.steerMode q) 0x40 q 12 [] s [axPart x] fun t =>
          axis t x = { axis s x with pendMode := some ⟨m, true, false, true, none⟩, faultActive := false }
      else Completes (.steerMode q) s [.hk, axPart x] fun t =>
        axis t x = { (if m = .off then axOff (axis s x) else axis s x) with
          pendMode := some ⟨m, false, false, false, some q⟩, faultActive := false } ∧
        (m = .off → (axis t x).mode = .off ∧ enPin t x = false ∧ pwmRuns t x = false ∧ (axis t x).iP = 0 ∧ (axis t x).iV = 0 ∧
          (axis t x).u = 0)) ∧
  (∀ q s, Served 0x41 q s →
      let x := fld (qw q 0) 31 31
      let repeat2 := bit (qw q 0) 30
      if ¬ (q.payload.length = 3 ∨ (q.payload.length = 2 ∧ repeat2 = false)) then Turned (.steerMove q) 0x41 q 3 s
      else if s.sys.devState = .safe then Turned (.steerMove q) 0x41 q 7 s
      else if domUp s 19 = false then Turned (.steerMove q) 0x41 q 10 s
      else if (axis s x).mode = .off ∨ (axis s x).faultActive = true then Turned (.steerMove q) 0x41 q 7 s
      else Answers (.steerMove q) 0x41 q 0 [] s [axPart x] fun t =>
        axis t x = { axis s x with
          pendMove := some (sgn 32 (qw q 1).toNat, if repeat2 = true then some (sgn 32 (qw q 2).toNat) else none), moveDone := false })

/-- Every opcode answers BAD_CRC, BAD_OPC, CASC_FAIL, STATE and BAD_LEN before its own checks; a request so refused has no effect -/
def Obligations.RequestsAreCheckedBeforeTheirOpcode : Prop :=
  let badCrc := fun (c : Instr) opc (q : Req) s => Completes c s [.replies, .sys] fun t =>
    Answered opc q 4 [] s t ∧ t.sys = { s.sys with badCrc := min 65535 (s.sys.badCrc + 1) }
  (∀ c opc q s, plainRequest c = some (opc, q) → portsQuiet s → canServe s = true → q.org ≠ .ring →
    if q.crcOk = false then badCrc c opc q s
    else if q.dest.toNat % 16 ≠ devIdx s then
      q.dest.toNat % 16 ≠ 15 → cascMaster s = false → Turned c opc q 13 s
    else if (if s.sys.devState = .recovery then inRecovery opc = false else opc = 0x66) then Turned c opc q 7 s
    else lenFits opc q.payload = false → Turned c opc q 3 s) ∧
  (∀ (b : Byte) q s, portsQuiet s → canServe s = true → q.org ≠ .ring → listedOpc.contains b.toNat = false →
    if q.crcOk = false then badCrc (.unknownOpcode b q) b.toNat q s
    else Completes (.unknownOpcode b q) s [.replies, .sys] fun t =>
      Answered b.toNat q 2 [] s t ∧ t.sys = { s.sys with badOpc := min 255 (s.sys.badOpc + 1) })

/-- A request that cannot be taken yet waits in the command buffer behind those before it, where it fits -/
def Obligations.RequestsWaitInOrder : Prop :=
  ∀ c opc q s, plainRequest c = some (opc, q) →
    ((s.port.buf = [] ∧ canServe s = false) ∨ (∃ e r, s.port.buf = e :: r ∧ entryIs (BitVec.ofNat 8 opc) q e = false)) →
    Completes c s [.port] fun t =>
      t.port = if 12 + 4 * q.payload.length ≤ bufFree s then
        { s.port with buf := s.port.buf ++ [⟨requestBytes (BitVec.ofNat 8 opc) q, none, q.org⟩] } else s.port

/-- From acceptance of an activation until it ends no write opcode is carried out: it answers BUSY or its own refusal -/
def Obligations.WritesAreBusyDuringAnActivation : Prop :=
  ∀ c opc q s, plainRequest c = some (opc, q) → [0x00, 0x01, 0x02, 0x11, 0x14, 0x31, 0x53, 0x65, 0x70].contains opc = false →
    portsQuiet s → canServe s = true → q.org ≠ .ring → q.crcOk = true → q.dest.toNat % 16 = devIdx s → s.sys.devState ≠ .recovery →
    lenFits opc q.payload = true → s.upd.act ≠ 0 →
    ∃ t st pay, exec c s = .next t ∧ t.port.replies = [replyOf opc q st pay s] ∧ st ≠ 0 ∧ st ≠ 12

/-- NOP, IDENT, GET_STATUS and ARCH_STATUS answer OK with the words the opcode tables list and change no parameter -/
def Obligations.ReadOpcodesAnswerWhatTheyName : Prop :=
  ∀ q s, q.payload.length = 0 →
    (Served 0x00 q s → Answers (.nop q) 0x00 q 0 [] s [] fun _ => True) ∧
    (Served 0x01 q s → ∃ w, Answers (.ident q) 0x01 q 0 w s [] (fun _ => True) ∧ w.length = 9 ∧ w[0]? = some 0x02564231#32 ∧
      w[5]? = some (wd (b2n s.sys.cascRole * 2 ^ 31 + s.sys.cascId % 8 * 2 ^ 28 + b2n s.sys.bootSrc * 2 ^ 27 +
        (if s.sys.devState = .recovery then 7 else s.upd.running % 8) * 2 ^ 24)) ∧ w[8]? = some (rd s 0x01 1)) ∧
    (Served 0x02 q s → Answers (.getStatus q) 0x02 q 0 ((List.range 6).map fun k => statusWord s 0xE0 (1 + k)) s [] fun _ => True) ∧
    (Served 0x53 q s → if domUp s 17 = false then Turned (.archStatus q) 0x53 q 10 s
      else Answers (.archStatus q) 0x53 q 0 ((List.range 10).map fun k => statusWord s 0xEE (1 + k)) s [.arch] fun t =>
        t.arch = { s.arch with writeErr := 0, timeouts := 0, dropWave := 0, dropEcho := 0, dropHist := 0, budgetDrop := 0 })

/-- SET_PARAM writes its words of the slate and sets the written mark, or refuses and writes nothing -/
def Obligations.SetParamWritesAllOrNothing : Prop :=
  ∀ q s, Served 0x10 q s → 3 ≤ q.payload.length → q.payload.length ≤ 1024 →
    let id := fld (qw q 0) 31 24
    let off := fld (qw q 0) 15 0
    let ws := q.payload.drop 2
    let counted := fun (t : State) => t.sys = { s.sys with formatCnt := min 255 (s.sys.formatCnt + 1) }
    if 0xE0 ≤ id ∧ id ≤ 0xEF then Turned (.setParam q) 0x10 q 10 s
    else match blockLen id with
      | none => Answers (.setParam q) 0x10 q 5 [errWord id off] s [] fun _ => True
      | some len =>
        if fld (qw q 1) 31 16 ≠ fld formatWord 31 16 then
          Answers (.setParam q) 0x10 q 6 [] s [.sys, .cfg] fun t => counted t ∧
            t.cfg = { s.cfg with slate := t.cfg.slate, written := t.cfg.written } ∧
            (∀ i o, cget t.cfg.slate i o = if i = id then resetWord i o else cget s.cfg.slate i o) ∧
            ∀ i, i ∈ t.cfg.written ↔ i = id ∨ i ∈ s.cfg.written
        else if fld formatWord 15 0 < fld (qw q 1) 15 0 then Answers (.setParam q) 0x10 q 6 [] s [.sys] counted
        else if len < off + ws.length then Turned (.setParam q) 0x10 q 9 s
        else
          (∀ k, k < ws.length → wordInRange id (off + k) (ws.getD k 0) = false →
            (∀ j, j < k → wordInRange id (off + j) (ws.getD j 0) = true) →
            Answers (.setParam q) 0x10 q 8 [errWord id (off + k)] s [] fun _ => True) ∧
          ((∀ k, k < ws.length → wordInRange id (off + k) (ws.getD k 0) = true) →
            Answers (.setParam q) 0x10 q 0 [] s [.cfg] fun t =>
              t.cfg = { s.cfg with slate := t.cfg.slate, written := t.cfg.written } ∧
              (∀ i o, cget t.cfg.slate i o = if i = id ∧ off ≤ o ∧ o < off + ws.length then storedWord i o (ws.getD (o - off) 0)
                else cget s.cfg.slate i o) ∧
              ∀ i, i ∈ t.cfg.written ↔ i = id ∨ i ∈ s.cfg.written)

/-- GET_PARAM returns the words of the copy it names, zeros with END beyond the block, and clears what it read -/
def Obligations.GetParamReadsTheCopyNamed : Prop :=
  ∀ q s, Served 0x11 q s → q.payload.length = 2 →
    let id := fld (qw q 0) 31 24
    let off := fld (qw q 0) 15 0
    let copy := fld (qw q 1) 31 30
    let n := fld (qw q 1) 10 0
    match (if 0xE0 ≤ id then statusLen id else blockLen id) with
    | none => Turned (.getParam q) 0x11 q 5 s
    | some len =>
      if copy = 3 ∨ n = 0 ∨ 1024 < n then Turned (.getParam q) 0x11 q 8 s
      else
        let word := fun o =>
          if 0xE0 ≤ id then statusWord s id o else if id = 0xB0 ∧ o = 2 then powerWord s else if id = 0xC0 ∧ 10 ≤ o then faultStatus s o
          else if copy = 0 then rd s id o else if copy = 1 then cget s.cfg.slate id o else rdNext s id o
        Answers (.getParam q) 0x11 q (if len < off + n then 9 else 0)
          ((List.range n).map fun k => if off + k < len then word (off + k) else 0) s
          (if id < 0xC0 then [] else [.sys, .emits, .fire, .fronts, .samp, .eng, .stk, .cal, .hk, .axA, .axB, .port, .flash, .link, .arch, .casc, .log])
          fun t => id = 0xE0 →
            t.sys = { s.sys with
              deferCnt := if off ≤ 7 ∧ 7 < off + n then 0 else s.sys.deferCnt
              forcedCnt := if off ≤ 7 ∧ 7 < off + n then 0 else s.sys.forcedCnt
              badCrc := if off ≤ 8 ∧ 8 < off + n then 0 else s.sys.badCrc
              badOpc := if off ≤ 8 ∧ 8 < off + n then 0 else s.sys.badOpc
              formatCnt := if off ≤ 8 ∧ 8 < off + n then 0 else s.sys.formatCnt }

/-- DISCARD takes every written slate back; COMMIT moves them into the pending set and applies it at once in IDLE and SAFE -/
def Obligations.DiscardAndCommitMoveTheSlates : Prop :=
  (∀ q s, Served 0x13 q s → q.payload.length = 0 → Answers (.discard q) 0x13 q 0 [] s [.cfg] fun t =>
    t.cfg = { s.cfg with slate := t.cfg.slate, written := [] } ∧
    ∀ i o, cget t.cfg.slate i o = if i ∈ s.cfg.written then rdNext s i o else cget s.cfg.slate i o) ∧
  (∀ q s, Served 0x12 q s → q.payload.length = 0 →
    match firstCross s crossRange, firstCross s crossState with
    | some p, _ => Answers (.commit q) 0x12 q 8 [errWord p.1 p.2] s [] fun _ => True
    | none, some p => Answers (.commit q) 0x12 q 7 [errWord p.1 p.2] s [] fun _ => True
    | none, none =>
      let n := (s.sys.commitId + 1) % 65536
      if s.sys.devState = .idle ∨ s.sys.devState = .safe then
        s.cfg.token = false → s.cfg.held = none → s.cfg.heldNew = [] → s.sys.cascRole = false →
        ∃ t, exec (.commit q) s = .next t ∧ Answered 0x12 q 0 [wd n] s t ∧ t.sys.commitId = n ∧ t.sys.appliedId = n ∧
          t.sys.irqPend.testBit 1 = true ∧ t.cfg.written = [] ∧ t.cfg.pendBlocks = [] ∧ t.cfg.slate = s.cfg.slate ∧
          (∀ i o, i ∈ s.cfg.written → rd t i o = cget s.cfg.slate i o) ∧
          ∀ i o, i ∉ s.cfg.written → i ∉ s.cfg.pendBlocks → rd t i o = rd s i o
      else Answers (.commit q) 0x12 q 12 [wd n] s [.sys, .cfg] fun t =>
        t.sys = { s.sys with commitId := n } ∧ t.cfg.written = [] ∧ t.cfg.slate = s.cfg.slate ∧ t.cfg.active = s.cfg.active ∧
        (∀ i o, i ∈ s.cfg.written → rdNext t i o = cget s.cfg.slate i o) ∧
        (∀ i o, i ∉ s.cfg.written → rdNext t i o = rdNext s i o) ∧ ∀ i o, rd t i o = rd s i o)

/-- READ_REG answers a register block's words from the address on, END with zeros beyond it, and clears RC fields it read -/
def Obligations.RegisterReadsAnswerTheBlock : Prop :=
  ∀ q s, Served 0x14 q s → q.payload.length = 2 →
    let a := (qw q 0).toNat
    let n := (qw q 1).toNat
    match regBlock a with
    | none => Turned (.readReg q) 0x14 q 5 s
    | some (b, base, len) =>
      if a % 4 ≠ 0 ∨ n = 0 ∨ 1024 < n then Turned (.readReg q) 0x14 q 8 s
      else
        let k := (a - base) / 4
        let stat := match b with | .stat _ => true | _ => false
        Answers (.readReg q) 0x14 q (if len < k + n then 9 else 0)
          ((List.range n).map fun i => if k + i < len then regWord s b (k + i) else 0) s
          (if stat = true then [.sys, .emits, .fire, .fronts, .samp, .eng, .stk, .cal, .hk, .axA, .axB, .port, .flash, .link, .arch, .casc, .log] else [])
          fun t => a = 0xE0020 → t.sys = { s.sys with badCrc := 0, badOpc := 0, formatCnt := 0 }

/-- WRITE_REG clears interrupt flags by ones, sets masks, levels, HKBUF_RD and the telemetry list, and ignores read-only words -/
def Obligations.RegisterWritesTakeEffect : Prop :=
  ∀ c q s w, (c = .writeReg q ∨ (c = .irqPendClear q ∧ qw q 0 = 0x110000#32) ∨ (c = .hkbufRdWrite q ∧ qw q 0 = 0x108000#32) ∨
      (c = .telemetryListWrite q ∧ 0x120000 ≤ (qw q 0).toNat ∧ (qw q 0).toNat < 0x120084)) →
    Served 0x15 q s → q.payload = [qw q 0, w] →
    let a := (qw q 0).toNat
    match regBlock a with
    | none => Turned c 0x15 q 5 s
    | some (b, base, _) =>
      if a % 4 ≠ 0 then ∃ st, (st = 8 ∨ st = 9) ∧ Turned c 0x15 q st s
      else match b with
        | .irqRegs => Answers c 0x15 q 0 [] s [.irq, .sys] fun t =>
            if a = 0x110000 then t.sys = { s.sys with irqPend := t.sys.irqPend } ∧
              ∀ i, 1 ≤ i → i ≤ 12 → t.sys.irqPend.testBit i = (s.sys.irqPend.testBit i && !bit w i)
            else if a = 0x110004 then t.sys = { s.sys with irqMask := fld w 12 0 }
            else t.sys = { s.sys with hkIrqLvl := fld w 11 0 }
        | .hkIdx => if a = 0x108000 then Answers c 0x15 q 0 [] s [.hk] fun t =>
              t.hk = { s.hk with rd := fld w 11 0, unread := (s.hk.wr + 4096 - fld w 11 0) % 4096 }
            else Answers c 0x15 q 0 [] s [] fun _ => True
        | .telList =>
            if a = 0x120000 then Answers c 0x15 q 0 [] s [.port] fun t =>
              t.port = { s.port with tlLenM1 := fld w 4 0, tlNew := s.port.telOn, replies := t.port.replies }
            else if tagListed (fld w 6 0) = false then Turned c 0x15 q 8 s
            else Answers c 0x15 q 0 [] s [.port] fun t =>
              t.port.tlNew = s.port.telOn ∧
              ∀ p, p < 32 → tget 0 t.port.tl p = if p = (a - base) / 4 - 1 then fld w 7 0 else tget 0 s.port.tl p
        | _ => Answers c 0x15 q 0 [] s [] fun _ => True

/-- STATE makes the transitions of R31 at once, at a boundary, or not at all, as the state and the request say -/
def Obligations.StateFollowsItsTable : Prop :=
  ∀ q s, Served 0x20 q s → q.payload.length = 1 →
    let n := fld (qw q 0) 2 0
    let now := stateCode s.sys.devState
    if n = 7 then Turned (.state q) 0x20 q 8 s
    else if n = now then Answers (.state q) 0x20 q 0 [] s [] fun _ => True
    else if [(1, 2), (2, 3), (2, 1), (3, 4), (3, 1), (4, 3), (4, 1), (5, 1)].contains (now, n) = false ∨ (now = 5 ∧ protLasting s = true) then
      Turned (.state q) 0x20 q 7 s
    else if s.sys.statePend = true then Turned (.state q) 0x20 q 1 s
    else if n = 2 ∧ (domUp s 9 = false ∨ (isMaster s = true ∧ ¬ (s.casc.enumOk = true ∧ s.casc.aligned = true))) then
      Turned (.state q) 0x20 q 10 s
    else if n = 3 ∧ (isSlave s = true ∨ (domOn s 19 = false ∧ (schedPos (rd s) = true ∨ frameMode (rd s) = 0))) then Turned (.state q) 0x20 q 10 s
    else if now = 3 ∨ (now = 2 ∧ n = 3 ∧ s.sys.cascRole = false) then
      Answers (.state q) 0x20 q 12 [] s [.sys] fun t => t.sys = { s.sys with statePend := true, stateTarget := n }
    else if n = 1 then
      ∃ t, exec (.state q) s = .next t ∧ Answered 0x20 q 0 [] s t ∧ t.sys.devState = .idle ∧ t.sys.irqPend.testBit 2 = true ∧
        t.fire.started = false ∧ t.fire.faultInh = (if now = 5 then false else s.fire.faultInh)
    else if n = 2 then Answers (.state q) 0x20 q 0 [] s [.devState, .fronts, .greys, .irq] fun t =>
      t.sys.devState = .armed ∧ t.sys.irqPend.testBit 2 = true
    else now = 4 → Answers (.state q) 0x20 q 0 [] s [.devState, .irq] fun t => t.sys.devState = .run ∧ t.sys.irqPend.testBit 2 = true

/-- HK_SELFCAL and HK_INJECT are refused as their rules say or take their place; CAL_STATUS answers the last run and CALSTAT -/
def Obligations.HousekeepingAndCalibrationRequests : Prop :=
  (∀ q s, Served 0x32 q s → q.payload.length = 0 →
    if domUp s 18 = false then Turned (.hkSelfcal q) 0x32 q 10 s
    else if s.hk.selfBusy = true then Turned (.hkSelfcal q) 0x32 q 1 s
    else Answers (.hkSelfcal q) 0x32 q 0 [] s [.hk] fun t => t.hk = { s.hk with selfBusy := true, selfWait := true, selfBefore := s.hk.inj.length }) ∧
  (∀ q s, Served 0x33 q s → q.payload.length = 4 →
    if ¬ (wordInRange 0x61 2 (qw q 1) = true ∧ wordInRange 0x61 3 (qw q 2) = true ∧ wordInRange 0x61 4 (qw q 3) = true) then
      Turned (.hkInject q) 0x33 q 8 s
    else if domUp s 18 = false then Turned (.hkInject q) 0x33 q 10 s
    else if 4 ≤ s.hk.inj.length + b2n s.hk.injCur.isSome then Turned (.hkInject q) 0x33 q 1 s
    else Answers (.hkInject q) 0x33 q 0 [] s [.hk] fun t =>
      t.hk = { s.hk with inj := s.hk.inj ++ [⟨qw q 1, qw q 2, qw q 3, some ((qw q 0).toNat % 64), 0⟩] }) ∧
  (∀ q s, Served 0x31 q s → q.payload.length = 0 → ∃ st,
    (s.cal.lastGrp = none → st = 15) ∧
    (∀ g, s.cal.lastGrp = some g → ((∀ r ∈ grpResults s g, r = 0 ∨ r = 3) ↔ st = 0) ∧
      (st = 14 ↔ (∃ r ∈ grpResults s g, r = 1) )) ∧
    Answers (.calStatus q) 0x31 q st ((List.range 10).map fun k => statusWord s 0xE7 (1 + k)) s [.cal] fun t =>
      t.cal = { s.cal with storeErr := false })

/-- Events are counted and classified with their action; FAULT_READ returns records, FAULT_CLEAR makes instances transient again -/
def Obligations.FaultReadAndClear : Prop :=
  (∀ q s, Served 0x70 q s → q.payload.length = 2 →
    let first := (qw q 0).toNat % 65536
    let n := (qw q 1).toNat
    if n = 0 ∨ 1024 < n then Turned (.faultRead q) 0x70 q 8 s
    else
      let m := 8 * min 128 (s.flt.log.length - first)
      ∃ w, Answers (.faultRead q) 0x70 q (if m < n then 9 else 0) w s [] (fun _ => True) ∧ w.length = n ∧
        (∀ j r, j < 128 → s.flt.log[first + j]? = some r → 8 * j + 8 ≤ n → (w.drop (8 * j)).take 8 = wordsOf (logBytes r)) ∧
        ∀ k, m ≤ k → k < n → w[k]? = some 0) ∧
  (∀ q s, Served 0x71 q s → q.payload.length = 1 →
    let src := fld (qw q 0) 31 24
    let inst := fld (qw q 0) 15 0
    let named := fun k i => 1 ≤ k ∧ k ≤ 9 ∧ i < instancesOf k ∧ (src = 0xFF ∨ src = k) ∧ (inst = 0xFFFF ∨ inst = i)
    ((∀ k i, ¬ named k i) → Turned (.faultClear q) 0x71 q 8 s) ∧
    ((∃ k i, named k i) → Answers (.faultClear q) 0x71 q 0 [] s [.axA, .axB, .eng, .faults, .flash, .fronts, .irq, .link, .log] fun t =>
      (∀ k i, i < 65536 → fltInst t k i = if named k i then FltInst.reset else fltInst s k i) ∧
      (∀ i, named 1 i → isLasting s 1 i = true → (engine t i).retired = false ∧ (engine t i).reload = true) ∧
      (∀ i, named 3 i → isLasting s 3 i = true → (front t i).stuckMask = false ∧ (front t i).maskHeld = true) ∧
      (∀ i, named 4 i → isLasting s 4 i = true → (axis t i).axFault = false))) ∧
  (∀ src inst d s, 1 ≤ src → src ≤ 9 → inst < instancesOf src →
    let n := fltSum (fltCount src inst s) src inst
    (((fltInst s src inst).counts.map (·.1)).Nodup → n = fltSum s src inst + 1) ∧
    let q := s.flt.queue
    let taken := q = [] ∨ ∃ e r, q = e :: r ∧ e.1 = src ∧ e.2.1 = inst
    (s.sys.rdy = false → exec (.faultClassify src inst d) s = .next s) ∧
    (s.sys.rdy = true → ¬ taken → Completes (.faultClassify src inst d) s [.fltQueue] fun t =>
      t.flt.queue = if (q.any fun e => e.1 == src && e.2.1 == inst) = true then q else q ++ [(src, inst, d)]) ∧
    (s.sys.rdy = true → taken → (isLasting s src inst = true ∨ n < faultN (rd s) src) →
      Completes (.faultClassify src inst d) s [.faults, .flash, .fltQueue, .irq, .log] fun t =>
        isLasting t src inst = isLasting s src inst ∧ fltSum t src inst = n ∧ t.flt.queue = q.tail ∧
        (fltSum s src inst ≠ 0 → t.flt.log = s.flt.log) ∧
        (fltSum s src inst = 0 → s.flash.used = true → s.flt.budget ≠ 0 → t.flt.budget = s.flt.budget - 1 ∧
          ∃ r, t.flt.log.head? = some r ∧ r.source = src ∧ r.kind = 0 ∧ r.inst = inst)) ∧
    (s.sys.rdy = true → taken → isLasting s src inst = false → faultN (rd s) src ≤ n →
      ∃ t, exec (.faultClassify src inst d) s = .next t ∧ isLasting t src inst = true ∧ (src = 1 → (engine t inst).retired = true) ∧
        (src = 3 → (front t inst).stuckMask = true) ∧ (src = 4 → (axis t inst).axFault = true) ∧ (src = 6 → safeDeclared s t))) ∧
  (∀ s, Completes .logBudgetRefill s [.log] fun t => t.flt = { s.flt with budget := min 256 (s.flt.budget + 1) })

/-- POWER is refused as a whole where a domain would stand without what it needs; else its switchings are queued in order -/
def Obligations.PowerIsCheckedThenTaken : Prop :=
  ∀ q s, Served 0x21 q s → q.payload.length = 1 →
    let has := fun d => d < 20 ∧ bit (qw q 0) d = true
    let up := fun d => has d ∧ domOn s d = false
    let down := fun d => ¬ has d ∧ domOn s d = true
    let live := s.sys.devState = .armed ∨ s.sys.devState = .run ∨ s.sys.devState = .hold
    let denied := ¬ has 0 ∨ (¬ has 9 ∧ ∃ d, has d ∧ (d ∈ [1, 2, 3, 4, 5, 6, 7, 8, 10, 11, 12, 13, 14, 19])) ∨
      ((up 15 ∨ up 16) ∧ s.pwr.vsl = false) ∨ (up 17 ∧ s.pwr.vap = false) ∨ (up 18 ∧ s.pwr.vhk = false) ∨ (up 9 ∧ s.pwr.refPresent = false) ∨
      (down 9 ∧ s.sys.devState ≠ .idle ∧ s.sys.devState ≠ .safe) ∨ (down 19 ∧ (s.axA.mode ≠ .off ∨ s.axB.mode ≠ .off)) ∨
      (down 19 ∧ live ∧ (schedPos (rd s) = true ∨ frameMode (rd s) = 0))
    (denied → Turned (.power q) 0x21 q 10 s) ∧
    (¬ denied → (∀ d, d < 20 → (has d ↔ domOn s d = true)) → (∀ d, has d → domUp s d = true) →
      Answers (.power q) 0x21 q 0 [wd (maskOf s.pwr.on)] s [] fun _ => True) ∧
    (¬ denied → (∃ d, d < 20 ∧ ¬ (has d ↔ domOn s d = true)) → Completes (.power q) s [.pwr] fun t =>
      (∃ set, t.pwr = { s.pwr with steps := t.pwr.steps, req := some (q, set) } ∧ ∀ d, d ∈ set ↔ has d) ∧
      t.pwr.steps = ([19, 18, 17, 16, 15, 14, 13, 12, 11, 10, 8, 7, 6, 5, 4, 3, 2, 1, 9].filter fun d => domOn s d && !bit (qw q 0) d).map (fun d => (d, false)) ++
        ([9, 1, 2, 3, 4, 5, 6, 7, 8, 10, 11, 12, 13, 14, 15, 16, 17, 18, 19].filter fun d => !domOn s d && bit (qw q 0) d).map fun d => (d, true))

/-- DOMAIN_SWITCH_STEP takes the next switching of the request STAGGER µs after the last; D9 waits for quarters that drain -/
def Obligations.DomainSwitchingsAreTakenInTurn : Prop :=
  (∀ s, s.pwr.steps = [] → exec .domainSwitchStep s = .next s) ∧
  (∀ s r, s.pwr.steps = (9, false) :: r → s.pwr.draining ≠ [] → exec .domainSwitchStep s = .next s) ∧
  (∀ s d r, s.pwr.steps = (d, true) :: r → Completes .domainSwitchStep s [.time, .pwr] fun t =>
    t.sys.now = max s.sys.now s.pwr.nextAt ∧
    t.pwr = { s.pwr with steps := r, nextAt := t.sys.now + 5000 * stagger (rd s), on := t.pwr.on, coming := t.pwr.coming } ∧
    domOn t d = true ∧ domUp t d = false ∧ ∀ e, e ≠ d → domOn t e = domOn s e ∧ domUp t e = domUp s e) ∧
  (∀ s d r, s.pwr.steps = (d, false) :: r → 10 ≤ d → d ≤ 13 → domUp s d = true → devRuns s = true →
    Completes .domainSwitchStep s [.time, .pwr] fun t => t.sys.now = max s.sys.now s.pwr.nextAt ∧
      t.pwr = { s.pwr with steps := r, nextAt := t.sys.now + 5000 * stagger (rd s), draining := t.pwr.draining, drainBy := t.pwr.drainBy } ∧
      (∀ e, e ∈ t.pwr.draining ↔ e = d ∨ e ∈ s.pwr.draining) ∧
      tget 0 t.pwr.drainBy d = t.sys.now + 5000 * (horizon (rd s) + 5)) ∧
  (∀ s d r, s.pwr.steps = (d, false) :: r → (d ≠ 9 ∨ s.pwr.draining = []) → ¬ (10 ≤ d ∧ d ≤ 13 ∧ domUp s d = true ∧ devRuns s = true) →
    ∃ t, exec .domainSwitchStep s = .next t ∧ t.sys.now = max s.sys.now s.pwr.nextAt ∧ t.pwr.steps = r ∧ domOn t d = false ∧
      (∀ e, e ≠ d → domOn t e = domOn s e) ∧ t.flt = s.flt ∧ t.flash = s.flash ∧ t.sys.devState = s.sys.devState ∧
      (d = 9 → t.sys.devtimeHeld = (s.sys.cyc + (if devRuns s = true then s.pwr.nextAt - s.sys.now else 0)) / 5 % 2 ^ 64) ∧
      (d = 19 → t.axA.mode = .off ∧ t.axB.mode = .off))

/-- A domain that comes up is up alone, after D9 where it needs D9, and starts with what its rules give it -/
def Obligations.DomainsComeUpWithTheirContent : Prop :=
  (∀ s d, d < 20 → s.pwr.coming.contains d = true → domOn s d = true →
    (d ∈ [1, 2, 3, 4, 5, 6, 7, 8, 10, 11, 12, 13, 14, 19] → domUp s 9 = true) → (d = 9 → s.pwr.refPresent = true) →
    ∃ t, exec (.domainUp d) s = .next t ∧ domUp t d = true ∧ (∀ e, e ≠ d → domUp t e = domUp s e ∧ domOn t e = domOn s e) ∧
      t.cfg = s.cfg ∧ t.flt = s.flt ∧ t.flash = s.flash ∧ t.sys.now = s.sys.now ∧ t.sys.devState = s.sys.devState ∧
      (d = 9 → t.sys.cyc = 0 ∧ t.pwr.refLost = false) ∧ (d ≠ 9 → t.sys.cyc = s.sys.cyc) ∧
      (1 ≤ d ∧ d ≤ 8 → ∀ k, k < 32 → front t (32 * (d - 1) + k) =
        { Front.reset with
          stuckMask := (front s (32 * (d - 1) + k)).stuckMask, maskHeld := (front s (32 * (d - 1) + k)).maskHeld
          range := startRange (rd s) (32 * (d - 1) + k), settleAt := s.sys.now + 10000000 }) ∧
      (d = 14 → t.stk.hists = [] ∧ t.stk.peaks = [] ∧ t.stk.openStacks = [] ∧ t.stk.histMiss = s.stk.histMiss ∧
        t.stk.stkDone = s.stk.stkDone ∧ t.stk.stkMiss = s.stk.stkMiss ∧ t.stk.stkDisc = s.stk.stkDisc) ∧
      (d = 19 → t.axA = { Axis.reset with axFault := isLasting s 4 0, reloadAt := s.sys.cyc } ∧
        t.axB = { Axis.reset with axFault := isLasting s 4 1, reloadAt := s.sys.cyc }) ∧
      ∀ q set, s.pwr.req = some (q, set) → s.pwr.steps = [] → s.pwr.draining = [] → portsQuiet s → q.org ≠ .ring →
        s.link.laneReq = none → (∀ e ∈ set, e = d ∨ domUp s e = true) → Answered 0x21 q 0 [wd (maskOf s.pwr.on)] s t ∧ t.pwr.req = none) ∧
  (∀ s d, d < 20 → s.pwr.coming.contains d = false ∨ (d = 9 ∧ s.pwr.refPresent = false) ∨
      (d ∈ [1, 2, 3, 4, 5, 6, 7, 8, 10, 11, 12, 13, 14, 19] ∧ domUp s 9 = false) → exec (.domainUp d) s = .next s)

/-- The end of a drain takes the quarter off with its engines at rest: at once when nothing is left, else HORIZON + 5 µs after its start -/
def Obligations.QuarterDrainsEnd : Prop :=
  ∀ s k, k < 4 →
    (s.pwr.draining.contains (10 + k) = false → exec (.quarterDrainEnd k) s = .next s) ∧
    (s.pwr.draining.contains (10 + k) = true → ∃ t, exec (.quarterDrainEnd k) s = .next t ∧
      t.sys.now = (if drained k s = true then s.sys.now else max s.sys.now (tget 0 s.pwr.drainBy (10 + k))) ∧
      domOn t (10 + k) = false ∧ (∀ e, e ≠ 10 + k → domOn t e = domOn s e) ∧ (10 + k) ∉ t.pwr.draining ∧
      t.cfg = s.cfg ∧ t.flash = s.flash ∧ t.samp = s.samp ∧ t.hk = s.hk ∧ t.axA = s.axA ∧ t.axB = s.axB ∧ t.fronts = s.fronts ∧
      ∀ j, j < 16 → (engine t (16 * k + j)).queue = [] ∧ (engine t (16 * k + j)).cur = none ∧
        (engine t (16 * k + j)).retired = (engine s (16 * k + j)).retired)

/-- A lost reference ends every pulse, inhibits fire and enters SAFE; each lost clock sets its flag while a domain uses it -/
def Obligations.LostClocksAreReported : Prop :=
  (∀ s c, c = .referenceLost ∨ c = .clockLost .refclk → domUp s 9 = true → s.pwr.refLost = false → ∃ t, exec c s = .next t ∧
    t.pwr.refLost = true ∧ (∀ e, e < 16 → (emit t e).high = false) ∧ (∃ d, t.flt.queue = s.flt.queue ++ [(8, 0, d)]) ∧ safeDeclared s t ∧
    t.pwr.refPresent = (if c = .referenceLost then s.pwr.refPresent else false)) ∧
  (∀ s, domUp s 9 = false ∨ s.pwr.refLost = true → exec .referenceLost s = .next s) ∧
  (∀ s, s.pwr.coming.contains 9 = true → domOn s 9 = true → ∃ t, exec .pllLockTimeout s = .next t ∧ t.pwr.refLost = true ∧
    (∀ d ∈ [1, 2, 3, 4, 5, 6, 7, 8, 9, 10, 11, 12, 13, 14, 19], domOn t d = false) ∧ t.pwr.steps = [] ∧ t.pwr.req = none ∧
    t.fire.faultInh = true ∧ ∀ q set, s.pwr.req = some (q, set) → portsQuiet s → q.org ≠ .ring → s.link.laneReq = none → s.casc.enumReq = none →
        s.sys.timeSet = none → Answered 0x21 q 10 [] s t) ∧
  (∀ s, ∃ t, exec (.clockLost .lrefclk) s = .next t ∧
    t.pwr = { s.pwr with lrefPresent := false, lrefLost := s.pwr.lrefLost || domOn s 15 || domOn s 16 }) ∧
  (∀ s, ∃ t, exec (.clockLost .aprefclk) s = .next t ∧
    t.pwr = { s.pwr with aprefPresent := false, aprefLost := s.pwr.aprefLost || domOn s 17 }) ∧
  (∀ s, ∃ t, exec (.clockLost .hkxtal) s = .next t ∧
    t.pwr = { s.pwr with hkxPresent := false, hkxLost := s.pwr.hkxLost || (domOn s 18 && !oscInt (rd s)) }) ∧
  (∀ s c, Completes (.clockRestored c) s (if c = .hkxtal then [.pwr, .hk] else [.pwr]) fun t => t.pwr = match c with
    | .refclk => { s.pwr with refPresent := true }
    | .lrefclk => { s.pwr with lrefPresent := true, lrefLost := false }
    | .aprefclk => { s.pwr with aprefPresent := true, aprefLost := false }
    | .hkxtal => { s.pwr with hkxPresent := true, hkxLost := false }) ∧
  (∀ s a b c, s.sys.resetLow = false → s.sys.porLow = false →
    Completes (.railFlagUpdate a b c) s [.pwr] fun t => t.pwr = { s.pwr with vsl := a, vap := b, vhk := c })

/-- The link takes the exit of a training state when its condition holds, starts again on timeouts and lost lock, and reads TRAIN and ALIGN -/
def Obligations.LinkTrainsThroughItsStates : Prop :=
  (∀ s, linkOn s = true →
    let rx := fun (p : Lane → Bool) => ∀ k, k < rxLanes (rd s) → p (lane s k) = true
    ∀ c, (c = .linkStateTransition ∨ c = .linkStageTimeout) →
    (s.link.st = .detect → rx (fun l => l.lock && l.partner) → Completes c s [.link, .irq] fun t => t.link.st = .train ∧ t.link.rxReady = false) ∧
    (s.link.st = .train → s.link.rxReady = true → (∀ k, k < txLanes (rd s) → (lane s k).partnerReady = true) →
      Completes c s [.link, .irq] fun t => t.link.st = .align ∧ ∀ k, k < rxLanes (rd s) → (lane t k).aligns = 0) ∧
    (s.link.st = .align → rx (fun l => decide (2 ≤ l.aligns) && l.partnerAck) →
      Completes c s [.casc, .irq, .link, .port, .replies, .sys] fun t => t.link.st = .up ∧ t.link.lfn = 0 ∧ t.link.sent = [] ∧
        t.link.cum = [] ∧ t.link.ownCum = 64 ∧ t.sys.irqPend.testBit 9 = true)) ∧
  (∀ s, linkOn s = true → linkExit s = none →
    exec .linkStateTransition s = .next s ∧
    (s.link.st = .detect → Completes .linkStageTimeout s [.time, .link, .irq, .replies] fun t =>
      t.sys.now = max s.sys.now (s.link.since + 500000000) ∧ t.link.since = t.sys.now ∧ t.link.st = .down ∧ t.link.retries = min 65535 (s.link.retries + 1) ∧ t.link.txUse = []) ∧
    (s.link.st = .train ∨ s.link.st = .align → Completes .linkStageTimeout s [.time, .link, .irq, .replies] fun t =>
      t.sys.now = max s.sys.now (s.link.since + 500000000) ∧ t.link.since = t.sys.now ∧ t.link.st = .detect ∧ t.link.trainTo = min 65535 (s.link.trainTo + 1))) ∧
  (∀ s, let active := ∃ k, k < rxLanes (rd s) ∧ (lane s k).rxState = 0
    (s.link.st = .up → active → Completes .linkLockLoss s [.link, .irq, .replies] fun t => t.link.st = .detect ∧ t.link.txUse = []) ∧
    (¬ active → exec .linkLockLoss s = .next s)) ∧
  (∀ s, linkOn s = true → s.link.st = .down → linkStopped s = false → s.pwr.lrefLost = false →
    Completes .linkDownRetry s [.time, .link, .irq, .replies] fun t =>
      t.link.st = .detect ∧ t.sys.now = max s.sys.now (s.link.since + 5000000000)) ∧
  (∀ s k, k < 8 → linkOn s = true → k < rxLanes (rd s) → Completes (.blockLockLost k) s [.link, .irq, .replies] fun t =>
    (lane t k).lock = false ∧ (s.link.st = .train ∨ s.link.st = .align → t.link.st = .detect)) ∧
  (∀ s, s.link.st = .train → Completes .rxAdaptationComplete s [.link] fun t => t.link.rxReady = true) ∧
  (∀ s k b, k < 8 → laneHears s k = true → Completes (.train k b) s [.link] fun t =>
    (lane t k).lock = true ∧ ((lane t k).partner = true ↔ b.rate = linkRate (rd s) ∧ b.lanesM1 + 1 = rxLanes (rd s)) ∧
    (b.tgt < txLanes (rd s) → (lane t b.tgt).partnerReady = b.rxReady ∧
      (lane t b.tgt).pre = if b.reqPre = 1 then min 7 ((lane s b.tgt).pre + 1) else if b.reqPre = 2 then (lane s b.tgt).pre - 1 else (lane s b.tgt).pre)) ∧
  (∀ s k b, k < 8 → laneHears s k = true → Completes (.align k b) s [.link, .irq] fun t =>
    (lane t k).lock = true ∧ (lane t k).aligns = if b.lane = k ∧ b.lanes = popBits 8 b.mask then (lane s k).aligns + 1 else 0)

/-- LANE_STATE of a lane of the stream link is checked in the order of the table, then the lanes take their state -/
def Obligations.LaneStateIsCheckedThenTaken : Prop :=
  ∀ q s, Served 0x22 q s → q.payload.length = 1 → bit (qw q 0) 31 = false → twf Lane.reset none s.link.lanes = true →
  let rx := bit (qw q 0) 30
  let code := fld (qw q 0) 29 28
  let has := fun k => k < 8 ∧ bit (qw q 0) k = true
  if (∃ k ∈ List.range 8, bit (qw q 0) k = true ∧ (if rx = true then rxLanes (rd s) else txLanes (rd s)) ≤ k) ∨ (rx = false ∧ code = 3) then
    Turned (.laneState q) 0x22 q 8 s
  else if s.link.st ≠ .up ∧ code ≠ 0 ∧ code ≠ (if rx = true then 3 else 2) then Turned (.laneState q) 0x22 q 7 s
  else if domUp s (if rx = true then 16 else 15) = false then Turned (.laneState q) 0x22 q 10 s
  else if rx = true ∧ code ≠ 0 then Answers (.laneState q) 0x22 q 0 [] s [.irq, .link] fun t => ∀ k, has k → (lane t k).rxState = code
  else if rx = false ∧ code = 2 then Answers (.laneState q) 0x22 q 0 [] s [.irq, .link] fun t =>
    ∀ k, has k → (lane t k).txState = 2 ∧ k ∉ t.link.txUse
  else if code = 0 then ∃ st, (st = 0 ∨ st = 12) ∧ Answers (.laneState q) 0x22 q st [] s [.irq, .link] fun t =>
    ∀ k, has k → if rx = true then ((lane s k).rxState ≠ 2 → (lane t k).rxState = 0) else (lane t k).txState = 0
  else if ∀ k ∈ List.range 8, bit (qw q 0) k = true → (lane s k).txState ≠ 0 then Answers (.laneState q) 0x22 q 0 [] s [] fun _ => True
  else Completes (.laneState q) s [.link] fun t => t.link.laneReq = some q ∧
    ∀ k, has k → (lane s k).txState = 0 → (lane t k).txLeaving = true

/-- A lane loses lock, counts errors, falls asleep and wakes by itself; the other lanes and the link stay as they are -/
def Obligations.LanesFailAndRecoverAlone : Prop :=
  (∀ s k, k < 8 →
    let hold := s.link.st = .up ∧ k < rxLanes (rd s) ∧ (lane s k).rxState = 0 ∧ (lane s k).retrain = 0 ∧
      ∃ j, j < rxLanes (rd s) ∧ j ≠ k ∧ (lane s j).rxState = 0 ∧ (lane s j).lock = true
    (hold → Completes (.laneLockLoss k) s [.fltQueue, .free, .irq, .link] fun t =>
      lane t k = { lane s k with lock := false, retrain := 1, aligns := 0, partnerAck := false } ∧ (∀ j, j ≠ k → lane t j = lane s j) ∧
      t.link = { s.link with lanes := t.link.lanes } ∧ (∃ d, t.flt.queue = s.flt.queue ++ [(2, k, d)]) ∧
      ∀ i, t.sys.irqPend.testBit i = (s.sys.irqPend.testBit i || decide (i = 9))) ∧
    (¬ hold → exec (.laneLockLoss k) s = .next s)) ∧
  (∀ s k, k < 8 →
    (laneHears s k = true → Completes (.invalidBlock k) s [.link] fun t => t.link = { s.link with lanes := t.link.lanes } ∧
      lane t k = { lane s k with rxSync := min 65535 ((lane s k).rxSync + 1) } ∧ ∀ j, j ≠ k → lane t j = lane s j) ∧
    (laneHears s k = false → exec (.invalidBlock k) s = .next s)) ∧
  (∀ s k n, k < 8 →
    (s.link.st = .up → Completes (.laneErr k n) s [.fltQueue, .free, .link] fun t => t.link = { s.link with lanes := t.link.lanes } ∧
      lane t k = { lane s k with txRpt := n % 65536 } ∧ (∀ j, j ≠ k → lane t j = lane s j) ∧
      ∃ ds : List Nat, ds.length = n % 65536 - (lane s k).txRpt ∧ t.flt.queue = s.flt.queue ++ ds.map fun d => (2, k, d)) ∧
    (s.link.st ≠ .up → exec (.laneErr k n) s = .next s)) ∧
  (∀ s k, k < 8 →
    ((lane s k).txLeaving = true → Completes (.txSleepEntry k) s [.casc, .irq, .link, .port, .replies, .sys] fun t =>
      lane t k = { lane s k with txState := 1, txLeaving := false } ∧ (∀ j, j ≠ k → lane t j = lane s j) ∧
      (∀ j, j ∈ t.link.txUse ↔ j ∈ s.link.txUse ∧ j ≠ k) ∧ t.link.st = s.link.st ∧
      t.link.ctl = s.link.ctl ++ List.replicate 16 ⟨0x66, k, [k, 0, 0, 0, 0, 0, 0]⟩ ∧ t.sys.irqPend.testBit 9 = true ∧
      ∀ q, s.link.laneReq = some q → portsQuiet s → q.org ≠ .ring → (∀ j, j < 8 → j ≠ k → (lane s j).txLeaving = false) →
        Answered 0x22 q 0 [] s t ∧ t.link.laneReq = none) ∧
    ((lane s k).txLeaving = false → exec (.txSleepEntry k) s = .next s)) ∧
  (∀ s k, k < 8 →
    ((lane s k).retrain = 3 → Completes (.rxDeepWake k) s [.irq, .link] fun t => t.link = { s.link with lanes := t.link.lanes } ∧
      lane t k = { lane s k with rxState := 0, retrain := 1, aligns := 0, partnerAck := false } ∧ (∀ j, j ≠ k → lane t j = lane s j) ∧
      ∀ i, t.sys.irqPend.testBit i = (s.sys.irqPend.testBit i || decide (i = 9))) ∧
    ((lane s k).retrain ≠ 3 → exec (.rxDeepWake k) s = .next s))

/-- Credits bound what is sent, frames go out by stream priority and lane, control blocks carry what they name, and CTRL frames come in -/
def Obligations.LinkFramesAndBlocksFlow : Prop :=
  (∀ s vs cum, vs < 5 → s.link.st = .up → Completes (.credit vs cum) s [.link] fun t =>
    if (cum + 65536 - tget 0 s.link.sent vs) % 65536 ≤ 32767 then t.link = { s.link with cum := tset 0 s.link.cum vs (cum % 65536) }
    else t.link = { s.link with credErr := min 255 (s.link.credErr + 1) }) ∧
  (∀ s v f r, s.link.st = .up → s.link.txUse ≠ [] → (∀ p ∈ s.port.replies, p.org ≠ .link) → nextStream s = some v →
    tget [] s.link.ready v = f :: r → Completes .cargoFrameSend s [.eng, .link] fun t =>
      t.link.lfn = s.link.lfn + 1 ∧ tget 0 t.link.sent v = (tget 0 s.link.sent v + 1) % 65536 ∧ tget [] t.link.ready v = r ∧
      t.link.framesTx = (s.link.framesTx + 1) % 2 ^ 32 ∧
      ∃ c, t.link.out = s.link.out ++ [c] ∧ some c.lane = s.link.txUse[s.link.lfn % s.link.txUse.length]? ∧ c.lfn = s.link.lfn % 65536 ∧
        c.vs = v ∧ c.bytes = cargoBytes s.link.lfn v f) ∧
  (∀ s k r, s.link.st = .up → s.link.txUse = k :: r → Completes .creditSend s [.link] fun t =>
    t.link = { s.link with ownSent := s.link.ownCum, ctl := s.link.ctl ++ [⟨0x55, k, [3, s.link.ownCum % 256, s.link.ownCum / 256, 0, 0, 0, 0]⟩] }) ∧
  (∀ s use, (s.link.st = .up ∧ use = s.link.txUse) ∨ (s.link.st = .align ∧ use = lanesToUse s) →
    Completes .alignMarkerSend s [.link] fun t => t.link = { s.link with ctl := s.link.ctl ++ use.map (fun k =>
    let n := nextLfn use k s.link.lfn % 65536
    ⟨0x2D, k, [k, use.length, n % 256, n / 256, 0, maskOf use, devIdx s]⟩) }) ∧
  (∀ s use, (s.link.st = .up ∧ use = s.link.txUse) ∨ (s.link.st ∈ [.detect, .train, .align] ∧
      use = (List.range (txLanes (rd s))).filter fun k => decide ((lane s k).txState = 0)) →
    Completes .refreshBurst s [.link] fun t => t.link = { s.link with ctl := s.link.ctl ++ use.flatMap (fun k =>
    List.replicate 16 ⟨0x33, k, [0x55, 0xAA, 0x33, 0xCC, 0x0F, 0xF0, 0x96]⟩) }) ∧
  (∀ s, s.link.st = .up → teleUs (rd s) ≠ 0 → Completes .teleFrameBuild s [.time, .link, .port] fun t =>
    t.sys.now = max s.sys.now (s.link.teleAt + 5000 * teleUs (rd s)) ∧ t.link.teleAt = t.sys.now ∧
    if hasCredit s 4 = false then
      t.link = { s.link with teleSkip := min 255 (s.link.teleSkip + 1), teleAt := t.sys.now } ∧ t.port = s.port
    else t.link = { s.link with teleAt := t.sys.now, ready := t.link.ready } ∧ t.port = { s.port with teleVer := t.port.teleVer } ∧
      ∃ f, tget [] t.link.ready 4 = tget [] s.link.ready 4 ++ [f] ∧ f.closed = true ∧ f.bytes.length = 4 * (s.port.tlLenM1 + 1) ∧
        ∀ p, p ≤ s.port.tlLenM1 → (f.bytes.drop (4 * p)).take 4 =
          leBytes 4 (telWord ((itemOf t (tlTag s p)).1 == tget 0 s.port.teleVer (tlTag s p)) (tlTag s p) (itemOf t (tlTag s p)).2)) ∧
  (∀ s v, v < 16 → Completes (.partFrameFlush v) s [.time, .link] fun t =>
    t.sys.now = (if ∃ f ∈ tget [] s.link.ready v, f.closed = false then max s.sys.now (tget 0 s.link.fed v + 5 * flushNs (rd s)) else s.sys.now) ∧
    (∀ f ∈ tget [] t.link.ready v, f.closed = true) ∧ (tget [] t.link.ready v).length = (tget [] s.link.ready v).length ∧
    ∀ w, w ≠ v → tget [] t.link.ready w = tget [] s.link.ready w) ∧
  (∀ s k b, k < 8 → s.link.st = .up → laneHears s k = true → b.length = 264 →
    let h := ofLe (b.take 4)
    let acc := (b.drop 4).take (4 * (nfld h 13 8 + 1))
    if ofLe (b.drop 260) ≠ crc32c (b.take 260) then Completes (.cargoFrameReceive k b) s [.casc, .fltQueue, .free, .link, .port, .replies, .sys] fun t =>
      (lane t k).rxCrc = min 65535 ((lane s k).rxCrc + 1) ∧ t.link.rxDrop = min 65535 (s.link.rxDrop + 1) ∧
      (portsQuiet s → t.link.rx = none ∧ t.link.rxQ = [] ∧
        t.link.ownCum = if h % 16 = 3 then (s.link.ownCum + 1) % 65536 else s.link.ownCum) ∧
      ∃ d, t.flt.queue = s.flt.queue ++ [(2, k, d)]
    else if h % 16 ≠ 3 ∨ 64 ≤ s.link.rxQ.countP (fun f => f.isSome) then Completes (.cargoFrameReceive k b) s [.link] fun t =>
      t.link = { s.link with rxDrop := min 65535 (s.link.rxDrop + 1) }
    else portsQuiet s → h.testBit 4 = true → headerOk acc = true → hdrLen acc ≤ 1024 → 12 + 4 * hdrLen acc ≤ acc.length →
      Completes (.cargoFrameReceive k b) s [.link, .port] fun t => t.port.buf = [⟨acc.take (12 + 4 * hdrLen acc), none, .link⟩] ∧
        t.link.rxQ = [] ∧ t.link.rx = none ∧ t.link.ownCum = (s.link.ownCum + 1) % 65536)

/-- ARCH_MOUNT, ARCH_START, ARCH_STOP and LANE_STATE of the archive port are checked in the order of the table, then taken -/
def Obligations.ArchiveRequestsAreCheckedThenTaken : Prop :=
  ∀ q s,
  (Served 0x50 q s → q.payload.length = 2 →
    if domUp s 17 = false ∨ isLasting s 5 0 = true then Turned (.archMount q) 0x50 q 10 s
    else if s.arch.mount ≠ none ∨ (s.arch.mounted = true ∧ s.arch.running ≠ []) then Turned (.archMount q) 0x50 q 1 s
    else ∃ st, (st = 12 ∨ (st = 11 ∧ s.arch.timedOut = true)) ∧ Answers (.archMount q) 0x50 q st [] s [.arch, .free, .stk] fun t =>
      (st = 11 → t.arch = s.arch) ∧
      (st = 12 → t.arch.mount = some (if s.arch.everMounted = true then .perst else .linkWait, (qw q 0).toNat, bit (qw q 1) 0) ∧
        t.arch.perstLow = s.arch.everMounted ∧ t.arch.mounted = false ∧ t.arch.suspended = false ∧ t.arch.cmds = [] ∧ t.arch.rings = [] ∧
        t.arch.running = [] ∧ t.arch.mountRes = s.arch.mountRes)) ∧
  (Served 0x51 q s → q.payload.length = 1 →
    if domUp s 17 = false then Turned (.archStart q) 0x51 q 10 s
    else if s.arch.mounted = false ∨ s.arch.suspended = true then Turned (.archStart q) 0x51 q 7 s
    else if (bit (qw q 0) 0 = true ∧ s.arch.wearStop = true) ∨ (∃ r ∈ List.range 3, bit (qw q 0) r = true ∧ ringQuota s.arch r < 2) ∨
      (bit (qw q 0) 3 = true ∧ s.arch.stSlots = 0) then Turned (.archStart q) 0x51 q 10 s
    else Answers (.archStart q) 0x51 q 0 [] s [.arch] fun t => ∀ k < 4, k ∈ t.arch.running ↔ (k ∈ s.arch.running ∨ bit (qw q 0) k = true)) ∧
  (Served 0x52 q s → q.payload.length = 1 →
    if domUp s 17 = false then Turned (.archStop q) 0x52 q 10 s
    else if s.arch.mounted = false ∨ s.arch.suspended = true then Turned (.archStop q) 0x52 q 7 s
    else Answers (.archStop q) 0x52 q (if bit (qw q 0) 4 = true then 12 else 0) [] s [.arch, .irq] fun t =>
      (∀ k < 4, k ∈ t.arch.running ↔ (k ∈ s.arch.running ∧ bit (qw q 0) k = false)) ∧
      (bit (qw q 0) 4 = true → t.arch.flushing = true ∧ ∀ r < 3, (ringOf s r).ext ≠ none → (ringOf t r).buf = []) ∧
      (bit (qw q 0) 4 = false → t.arch.rings = s.arch.rings ∧ t.arch.cmds = s.arch.cmds ∧ t.sys.irqPend = s.sys.irqPend)) ∧
  (Served 0x22 q s → q.payload.length = 1 → bit (qw q 0) 31 = true →
    let rx := bit (qw q 0) 30
    let code := fld (qw q 0) 29 28
    if 2 ≤ code then Turned (.laneState q) 0x22 q 8 s
    else if domUp s 17 = false ∨ (rx = true ∧ code = 1 ∧ s.arch.gen ≠ 0 ∧ s.arch.l0sCap = false) then Turned (.laneState q) 0x22 q 10 s
    else if s.arch.gen = 0 then Turned (.laneState q) 0x22 q 7 s
    else Answers (.laneState q) 0x22 q 0 [] s [.arch] fun t =>
      t.arch = if rx = true then { s.arch with l0sRx := decide (code = 1) } else { s.arch with l0sTx := decide (code = 1) })

/-- A mount waits for PERST, link and controller, runs its admin commands in order, and ends with MOUNT_RES and an interrupt -/
def Obligations.ArchiveMountGoesThroughItsStages : Prop :=
  let ends := fun (c : Instr) s (res : Nat) (l : List StatePart) => Completes c s (.arch :: .irq :: .stk :: l) fun t =>
    t.arch.mountRes = res ∧ t.arch.mount = none ∧ t.arch.mounted = false ∧ t.arch.cmds = [] ∧ t.sys.irqPend.testBit 8 = true
  let suspends := fun (c : Instr) s => Completes c s [.arch, .irq, .stk] fun t => t.arch.suspended = true ∧ t.arch.mounted = false ∧
    t.arch.cmds = [] ∧ t.arch.rings = [] ∧ t.arch.running = [] ∧ t.sys.irqPend.testBit 8 = true
  let plain := fun (s : State) st n => NvmeCmd.mk s.arch.nextCid (.mount st n) 0 [] 0 [] 0 [] s.sys.now false
  (∀ s, mountStage s = some .perst → Completes .apPerstTimer s [.arch] fun t => mountStage t = some .linkWait ∧ t.arch.perstLow = false) ∧
  (∀ s, mountStage s = some .linkWait → (∀ gen width cap, Completes (.pcieLinkUp gen width cap) s [.arch] fun t =>
      mountStage t = some .enableWait ∧ t.arch.gen = clampN 1 (maxGen (rd s)) gen ∧ t.arch.width = min width (maxWidth (rd s)) ∧ t.arch.l0sCap = cap) ∧
    ends .pcieLinkTimeout s 2 []) ∧
  (∀ s n, mountStage s = some .enableWait → ends (.controllerReady none) s 3 [] ∧
    Completes (.controllerReady (some n)) s [.arch] fun t => mountStage t = some .identify ∧ t.arch.mqes = n ∧ t.arch.mdts = 0 ∧
      t.arch.cmds = s.arch.cmds ++ [plain s .identify 0]) ∧
  (∀ s cid c st step d, s.arch.mount ≠ none → s.arch.flushing = false → s.arch.cmds.find? (fun c => c.cid == cid) = some c → c.use = .mount st step →
    c.more = [] → c.left = 0 →
    let k := Instr.nvmeCompletion cid true true d
    (∀ st', (st, st') ∈ [(MountStage.identify, MountStage.features), (.features, .namespaceId), (.cache, .health)] →
      Completes k s [.arch] fun t => mountStage t = some st' ∧ t.arch.cmds = s.arch.cmds.erase c ++ [plain s st' 0] ∧
        (∀ n, st = .identify → d = .controller n → t.arch.mdts = n) ∧ (∀ n, st = .features → d = .granted n → t.arch.pairs = min 4 n)) ∧
    (st = .queues → Completes k s [.arch] fun t =>
      if step + 1 < 2 * s.arch.pairs then mountStage t = some .queues ∧ t.arch.cmds = s.arch.cmds.erase c ++ [plain s .queues (step + 1)]
      else mountStage t = some .cache ∧ t.arch.cmds = s.arch.cmds.erase c ++ [plain s .cache 0]) ∧
    (∀ active lba metaSz prot bytes, st = .namespaceId → d = .namespaceId active lba metaSz prot bytes →
      if active = false then ends k s 4 []
      else if (lba ≠ 512 ∧ lba ≠ 4096) ∨ metaSz ≠ 0 ∨ prot = true then ends k s 5 []
      else Completes k s [.arch] fun t => mountStage t = some .queues ∧ t.arch.lba = lba ∧ t.arch.e = min bytes (2 ^ 43) / 2 ^ 26) ∧
    (∀ b, st = .recover → step = 1 → d = .bytes b → match newerOf superValid s.arch.recov.held (c.got ++ b) with
      | none => ends k s 6 []
      | some sb =>
        if numAt sb 6 2 ≠ 1 then ends k s 7 []
        else if numAt sb 16 8 ≠ Config.dieNumber then ends k s 8 []
        else Completes k s [.arch] fun t => mountStage t = some .recover ∧ t.arch.sbSeq = numAt sb 8 8 ∧ t.arch.e = numAt sb 28 4 ∧
          t.arch.stSlots = numAt sb 32 1 ∧ t.arch.quotas = [numAt sb 33 1, numAt sb 34 1, numAt sb 35 1] ∧ t.arch.rings = [] ∧
          ∃ n, t.arch.cmds = s.arch.cmds.erase c ++ [n] ∧ n.use = .mount .recover 2 ∧ n.addr = 2 ^ 20 ∧
            n.len + n.left = 4096 + 16 * numAt sb 28 4) ∧
    (st = .recover ∧ step = 6 → s.arch.crit.testBit 3 = false → Completes k s [.arch, .irq] fun t =>
      t.arch.mounted = true ∧ t.arch.mountRes = 1 ∧ t.arch.mount = none ∧ t.arch.ckSeq = s.arch.ckSeq + 1 ∧ t.sys.irqPend.testBit 8 = true)) ∧
  (∀ s, domUp s 17 = true → s.arch.gen ≠ 0 →
    (s.arch.mount ≠ none → ends .pcieLinkDown s 2 [] ∧ ends .controllerFatalStatus s 3 []) ∧
    (s.arch.mount = none → s.arch.mounted = true → s.arch.suspended = false → suspends .pcieLinkDown s ∧ suspends .controllerFatalStatus s))

/-- Completions advance chunks and checkpoints; an error raises an event and is retried once, then counted -/
def Obligations.ArchiveCommandsEndOnceOrAreRetried : Prop :=
  (∀ s cid ok dnr d, s.arch.cmds.find? (fun c => c.cid == cid) = none →
    exec (.nvmeCompletion cid ok dnr d) s = .next s ∧ exec (.nvmeCommandTimeout cid) s = .next s) ∧
  (∀ s cid c, s.arch.cmds.find? (fun c => c.cid == cid) = some c →
    let plain := fun u => NvmeCmd.mk s.arch.nextCid u 0 [] 0 [] 0 [] s.sys.now false
    let whole := c.more = [] ∧ c.left = 0
    let due := max s.sys.now (c.at_ + 5000000 * (if (nvmeOpcode c.use).1 then adminTo (rd s) else ioTo (rd s)))
    (∀ d, s.arch.flushing = false → c.more ≠ [] → Completes (.nvmeCompletion cid true true d) s [.arch, .irq] fun t => ∃ n,
      t.arch.cmds = s.arch.cmds.erase c ++ [n] ∧ n.use = c.use ∧ n.addr = c.addr + c.data.length ∧ n.data ++ n.more = c.more ∧
      (s.arch.mdts ≠ 0 → n.data.length ≤ s.arch.mdts)) ∧
    (∀ b, s.arch.flushing = false → c.more = [] → c.left ≠ 0 → Completes (.nvmeCompletion cid true true (.bytes b)) s [.arch] fun t => ∃ n,
      t.arch.cmds = s.arch.cmds.erase c ++ [n] ∧ n.use = c.use ∧ n.addr = c.addr + c.len ∧ n.len + n.left = c.left ∧ n.got = c.got ++ b) ∧
    (∀ d r ext slot, whole → s.arch.flushing = false → c.use = .chunk r ext slot → Completes (.nvmeCompletion cid true true d) s [.arch] fun t =>
      (tget (0, 0, 0, 0) t.arch.exts ext).2.2.1 = max (tget (0, 0, 0, 0) s.arch.exts ext).2.2.1 (slot + 1) ∧
      t.arch.cmds = s.arch.cmds.erase c) ∧
    (∀ d, whole → s.arch.flushing = false → c.use = .flush1 → Completes (.nvmeCompletion cid true true d) s [.arch, .irq] fun t => ∃ n,
      t.arch.cmds = s.arch.cmds.erase c ++ [n] ∧ n.use = .checkpoint ∧ n.data ++ n.more = checkpointBytes (s.arch.ckSeq + 1) s ∧
      n.addr = if (s.arch.ckSeq + 1) % 2 = 1 then 2 ^ 20 else 5 * 2 ^ 20) ∧
    (∀ d, whole → s.arch.flushing = false → c.use = .checkpoint → Completes (.nvmeCompletion cid true true d) s [.arch] fun t =>
      t.arch.ckSeq = s.arch.ckSeq + 1 ∧ t.arch.cmds = s.arch.cmds.erase c ++ [plain .flush2]) ∧
    (∀ d, whole → s.arch.flushing = true → c.use = .flush2 → Completes (.nvmeCompletion cid true true d) s [.arch, .irq] fun t =>
      t.arch.flushing = false ∧ t.sys.irqPend.testBit 8 = true) ∧
    (c.retried = false → s.arch.flushing = false →
      let again := fun (t : State) => ∃ d, t.flt.queue = s.flt.queue ++ [(5, 0, d)] ∧
        t.arch.cmds = s.arch.cmds.erase c ++ [{ c with cid := s.arch.nextCid, at_ := t.sys.now, retried := true }]
      (∀ d, Completes (.nvmeCompletion cid false false d) s [.arch, .fltQueue, .free, .irq] again) ∧
      ((nvmeOpcode c.use).1 = false ∨ c.use = .health → Completes (.nvmeCommandTimeout cid) s [.time, .arch, .fltQueue, .free, .irq] fun t =>
        again t ∧ t.sys.now = due ∧ t.arch.timeouts = satAdd 16 s.arch.timeouts 1)) ∧
    (s.arch.flushing = false → (∀ d dnr, c.retried = true ∨ dnr = true →
      (∀ r ext slot, c.use = .chunk r ext slot → Completes (.nvmeCompletion cid false dnr d) s [.arch, .fltQueue, .free] fun t =>
        t.arch.writeErr = satAdd 16 s.arch.writeErr 1 ∧ ∃ d, t.flt.queue = s.flt.queue ++ [(5, 0, d)]) ∧
      (∀ m, c.use = .mergeWrite m → Completes (.nvmeCompletion cid false dnr d) s [.arch, .fltQueue, .free, .stk] fun t =>
        t.stk = { s.stk with stDrop := satAdd 16 s.stk.stDrop 1 } ∧ ∃ d, t.flt.queue = s.flt.queue ++ [(5, 0, d)]))) ∧
    (∀ st step, c.use = .mount st step → (nvmeOpcode c.use).1 = true →
      Completes (.nvmeCommandTimeout cid) s [.time, .arch, .fltQueue, .free, .irq, .stk] fun t => t.sys.now = due ∧
      t.arch.mountRes = 10 ∧ t.arch.mount = none ∧ t.arch.timeouts = satAdd 16 s.arch.timeouts 1 ∧
      ∃ d, t.flt.queue = s.flt.queue ++ [(5, 0, d)]))

/-- Records enter their ring or are counted as dropped; chunks are sealed, checkpoints taken, stations merged and health read -/
def Obligations.ArchiveRecordsFillTheirRings : Prop :=
  (∀ s r b rest, s.arch.inQ = (r, b) :: rest →
    let hold := r = 0 ∧ (s.arch.budgetHold = true ∨ s.arch.wearStop = true)
    (hold ∨ s.arch.mounted = false ∨ s.arch.suspended = true ∨ r ∉ s.arch.running ∨ stagingFull r b s = true →
      Completes .archiveRecordStage s [.arch] fun t => t.arch = { s.arch with
        inQ := rest
        dropWave := if r = 0 then satAdd 32 s.arch.dropWave 1 else s.arch.dropWave
        dropEcho := if r = 1 then satAdd 32 s.arch.dropEcho 1 else s.arch.dropEcho
        dropHist := if 2 ≤ r then satAdd 32 s.arch.dropHist 1 else s.arch.dropHist
        budgetDrop := if r = 0 ∧ (s.arch.budgetHold || s.arch.wearStop) = true then satAdd 32 s.arch.budgetDrop 1 else s.arch.budgetDrop }) ∧
    (∀ n, ¬hold → s.arch.mounted = true → s.arch.suspended = false → r ∈ s.arch.running → stagingFull r b s = false →
      (ringOf s r).ext = some n → (ringOf s r).slot < 512 → (ringOf s r).buf.length + b.length < 131008 →
      Completes .archiveRecordStage s [.arch] fun t => t.arch.inQ = rest ∧ (ringOf t r).ext = some n ∧
        (ringOf t r).buf = (ringOf s r).buf ++ b ∧ (ringOf t r).first = some ((ringOf s r).first.getD (ringOf s r).buf.length) ∧
        (ringOf t r).opened = (if (ringOf s r).buf = [] then s.sys.now else (ringOf s r).opened) ∧
        ∀ k, k ≠ r → ringOf t k = ringOf s k)) ∧
  (∀ s r n, s.arch.mounted = true → r < 3 → (ringOf s r).buf ≠ [] → (ringOf s r).ext = some n → (∀ c ∈ s.arch.cmds, c.use ≠ .dealloc n) →
    Completes (.chunkSealTimer r) s [.time, .arch, .irq] fun t => (ringOf t r).buf = [] ∧ (ringOf t r).first = none ∧
      t.sys.now = max s.sys.now ((ringOf s r).opened + 5000000000 * sealS (rd s)) ∧
      ∃ c, t.arch.cmds = s.arch.cmds ++ [c] ∧ c.use = .chunk r n (ringOf s r).slot ∧ c.addr = n * 2 ^ 26 + (ringOf s r).slot * 131072 ∧
        c.data ++ c.more = padLba s.arch.lba (chunkBytes t r n (ringOf s r).slot (ringOf s r).first (ringOf s r).buf)) ∧
  (∀ s, s.arch.mounted = true → s.arch.suspended = false → ckptBusy s = false → s.arch.flushing = false →
    Completes .checkpointTimer s [.arch] fun t => t.arch.cmds = s.arch.cmds ++ [⟨s.arch.nextCid, .flush1, 0, [], 0, [], 0, [], s.sys.now, false⟩]) ∧
  (∀ s m rest, s.stk.merges = m :: rest → s.arch.merging = none → (∀ c ∈ s.arch.cmds, ∀ j n, c.use ≠ .mergeRead j n ∧ c.use ≠ .mergeWrite n) →
    let counted := Completes .stationMerge s [.arch, .irq, .stk] fun t => t.stk = { s.stk with merges := rest, stDrop := satAdd 16 s.stk.stDrop 1 }
    if s.arch.mounted = false ∨ s.arch.suspended = true then counted
    else match stationSlot s m.station, (List.range s.arch.stSlots).find? fun j => (lookupNat s.arch.dir j).isNone with
      | some j, _ => Completes .stationMerge s [.arch, .stk] fun t => t.stk = { s.stk with merges := rest } ∧
          ∃ c, t.arch.cmds = s.arch.cmds ++ [c] ∧ c.use = .mergeRead j m ∧ c.addr = (1 + 8 * j) * 2 ^ 26 + (128 * m.ch + m.dir) * 16384 ∧
            c.len + c.left = 16384
      | none, none => counted
      | none, some j => Completes .stationMerge s [.arch, .irq, .stk] fun t => t.stk = { s.stk with merges := rest } ∧ t.arch.merging = some m ∧
          t.arch.sbSeq = s.arch.sbSeq + 1 ∧ lookupNat t.arch.dir j = some m.station ∧
          ∃ c, t.arch.cmds = s.arch.cmds ++ [c] ∧ c.use = .superblock 0 ∧ c.addr = 0 ∧ c.data ++ c.more = superBytes t) ∧
  (∀ s, domUp s 17 = true → Completes .healthReadTimer s [.arch, .irq] fun t => t.arch.buckets = 0 :: s.arch.buckets.take 23 ∧
    (t.arch.budgetHold = (s.arch.budgetHold && decide (15 * wearBudget (rd s) * 2 ^ 30 ≤ wearSum t * 16))) ∧
    (s.arch.mounted = true → s.arch.suspended = false → t.arch.cmds = s.arch.cmds ++ [⟨s.arch.nextCid, .health, 0, [], 0, [], 0, [], s.sys.now, false⟩]))

/-- A run reads its temperature, takes hold, goes through its phases and ends each with a result a channel; dither and test pulses -/
def Obligations.CalibrationRunsGoThroughTheirPhases : Prop :=
  (∀ s g tp, g < 9 → domUp s 18 = true → (calGrp s g).readRes ≠ 0 → (calGrp s g).phase = 1 → (calGrp s g).tStart = none →
    (calGrp s g).temp = some tp →
    if running s = true then Completes (.calTempReadDone g) s [.cal] fun t =>
      calGrp t g = { calGrp s g with
        tStart := some tp, tEnd := none, readRes := 0, tempHold := (calGrp s g).tempHold || decide ((calGrp s g).readRes = 2) }
    else Completes (.calTempReadDone g) s [.cal, .hk] fun t => (calGrp t g).hold = true ∧ (calGrp t g).tStart = some tp ∧
      (calGrp t g).phase = if nextPhase (calGrp s g).phases 2 = 0 then 6 else nextPhase (calGrp s g).phases 2) ∧
  (∀ s g, g < 9 → 2 ≤ (calGrp s g).phase → (calGrp s g).phase ≤ 5 →
    let ends := fun c => Completes c s [.cal, .flash, .free, .hk, .irq, .log, .samp] fun t =>
      (calGrp t g).phase = (if nextPhase (calGrp s g).phases ((calGrp s g).phase + 1) = 0 then 6
        else nextPhase (calGrp s g).phases ((calGrp s g).phase + 1)) ∧
      ((calGrp s g).phase = 2 → ∀ c ∈ groupChans g, (calCh t c).runPed = if chanDone s g c = true then 0 else 2)
    ends (.calPhaseTimeout g) ∧
    if (groupChans g).all (chanDone s g) = true then ends (.calPhaseComplete g) else exec (.calPhaseComplete g) s = .next s) ∧
  (∀ s g, g < 9 → (calGrp s g).phase = 3 → ditherEn (runRd s g) = true →
    let now := s.sys.cyc
    if (g < 8 ∧ ∃ c ∈ groupChans g, (listening s c now || amberAt s c now || gated s c now) = true) ∨
        (g = 8 ∧ ∃ i ∈ List.range 4, accepting s i now = true) then
      Completes (.ditherFreePulse g) s [.cal, .free] fun t => t.cal = { s.cal with lfsr := t.cal.lfsr }
    else Completes (.ditherFreePulse g) s [.cal, .flash, .free, .irq, .log] fun t => ∀ c ∈ groupChans g,
      calCh t c = if suppressed s c = true ∨ (calCh s c).runStuck = true then calCh s c
        else if stuckPulses (runRd s g) * 16 ≤ (calCh s c).quiet + 1 then { calCh s c with quiet := 0, stuckLow := true, runStuck := true }
        else { calCh s c with quiet := (calCh s c).quiet + 1 }) ∧
  (∀ s g, g < 9 → Completes (.ditherGatedPulse g) s [.cal] fun t => calGrp t g = { calGrp s g with armed := false } ∧
    ∀ c, calCh t c = calCh s c) ∧
  (∀ s g, g < 8 → (calGrp s g).phase = 4 → running s = false →
    (Completes (.gainTestStep g 0) s [.cal, .fronts] fun t => ∀ c ∈ groupChans g, (calCh s c).testR = none →
      (front t c).range = (calCh s c).tests % 3 ∧ (calCh t c).testR = some (front s c).range ∧ (calCh t c).tests = (calCh s c).tests + 1) ∧
    (Completes (.gainTestStep g 1) s [.cal, .samp] fun t => (calGrp t g).armed = true ∧
      t.samp.calReqs = s.samp.calReqs ++ ((groupChans g).filter fun c => (calCh s c).testR.isSome).map fun c => (c, s.sys.cyc / 16 + 1, none)) ∧
    (Completes (.gainTestStep g 2) s [.fronts] fun t => ∀ c ∈ groupChans g, (front t c).range = min 3 ((front s c).range + 1)) ∧
    (Completes (.gainTestStep g 3) s [.cal, .fronts] fun t => ∀ c ∈ groupChans g, ∀ r, (calCh s c).testR = some r →
      (front t c).range = r ∧ (calCh t c).testR = none))

/-- Triggers start passes; an entry is switched to, delayed, waits for its reference and PWM edge, and begins to convert -/
def Obligations.HousekeepingPassesRunTheirEntries : Prop :=
  let starts := fun (c : Instr) s => Completes c s [.hk] fun t => t.hk.phase = .toSwitch ∧ t.hk.entry = 0 ∧ t.hk.rep = 0 ∧ t.hk.passRun = true
  let stale := fun s (opn : Bool) => s.hk.outQ ++ [resultBits (hkCode s) s.hk.curGain true false opn false false false false s.hk.passes (lastValue s)]
  ∀ s, domUp s 18 = true →
  (s.hk.phase = .waitPass → s.hk.selfWait = false → seqEn (rd s) = true → passTrig (rd s) = 0 → starts .hkPassTrigger s) ∧
  (seqEn (rd s) = true → passTrig (rd s) = 1 →
    if s.hk.passRun = true then Completes .hkTimerTick s [.hk] fun t => t.hk = { s.hk with timerMiss := min 255 (s.hk.timerMiss + 1) }
    else if s.hk.phase = .waitPass ∧ s.hk.selfWait = false then starts .hkTimerTick s
    else Completes .hkTimerTick s [.hk] fun t => t.hk = { s.hk with passRun := true, resumeAt := some (0, 0) }) ∧
  (∀ x falling, x < 2 → x = pwmAxis (hkRd s) → falling = pwmFalling (hkRd s) →
    (s.hk.phase = .pwmWait → Completes (.hkPwmEdge x falling) s [.hk] fun t => t.hk.phase = .converting ∧ t.hk.paused = 0) ∧
    (s.hk.phase = .waitPass → s.hk.selfWait = false → seqEn (rd s) = true → passTrig (rd s) = 2 → starts (.hkPwmEdge x falling) s)) ∧
  (∀ v0, s.hk.phase = .toSwitch → s.hk.injCur = none → s.hk.bgBusy = false → s.hk.entry ≤ seqLast (rd s) → let e := tableEnt s s.hk.entry
    Completes (.hkEntrySwitch v0) s [.hk] fun t => t.hk.curEnt = e ∧
      t.hk.curGain = (if eAr e = true then (hkEnt s s.hk.entry).gain else eGain e) ∧ t.hk.excSet = eExc e ∧ t.hk.tdac = (if eTdac e = true then some (ePos e) else none) ∧
      (∀ n < 4, let v := (setSources s (eExc e)).getD n 0
        tget (0, 0) t.hk.src n = if v = 0 then (0, 0) else (srcLevel v + 8 * b2n (srcMode v), srcPin v)) ∧
      if burnoutDue s e = true then t.hk.phase = .burnout ∧ t.hk.boV0 = some v0 else t.hk.phase = .delay) ∧
  (∀ v1, s.hk.phase = .burnout →
    if (boMv (hkRd s) : Int) * 500 < v1 - s.hk.boV0.getD 0 then Completes (.burnoutPulseEnd v1) s [.cal, .hk, .items, .sys] fun t =>
      t.hk.outQ = stale s true ∧ t.hk.boOpen = satAdd 16 s.hk.boOpen 1
    else Completes (.burnoutPulseEnd v1) s [.hk] fun t => t.hk = { s.hk with boV0 := none, phase := .delay }) ∧
  (s.hk.phase = .delay → Completes .hkEntryDelayEnd s [.hk] fun t =>
    if refReady s (eRef s.hk.curEnt) = false then t.hk = { s.hk with phase := .refWait }
    else if eWaitPwm s.hk.curEnt = false then t.hk.phase = .converting ∧ t.hk.paused = 0
    else t.hk.phase = .pwmWait ∨ t.hk.phase = .converting) ∧
  (s.hk.phase = .refWait → Completes .hkRefWaitTimeout s [.cal, .hk, .items, .sys] fun t =>
    t.hk.outQ = stale s false ∧ t.hk.refFail = min 255 (s.hk.refFail + 1)) ∧
  (∀ r set, r < 3 → Completes (.refrdyChange r set) s [.hk] fun t => refReady t r = set ∧ (∀ k < 3, k ≠ r → refReady t k = refReady s k) ∧
    (s.hk.phase = .refWait ∧ r = eRef s.hk.curEnt ∧ set = true → eWaitPwm s.hk.curEnt = false → t.hk.phase = .converting) ∧
    (s.hk.phase ≠ .refWait → t.hk.phase = s.hk.phase))

/-- A conversion end gives its result, results enter the ring of 4,096, pauses count, and blanking and injected work interrupt -/
def Obligations.HousekeepingResultsReachTheBuffer : Prop :=
  (∀ s raw ovr, domUp s 18 = true → s.hk.phase = .converting → s.hk.bgBusy = false →
    Completes (.hkConversionEnd raw ovr) s [.cal, .eng, .free, .hk, .items, .sys] fun t => ∃ f < 65536,
      let e := s.hk.curEnt
      let g := s.hk.curGain
      let c := corrected (hkFactors s g) raw ovr
      t.hk.outQ = s.hk.outQ ++ [match engValue s e g c.1 f with
        | none => resultBits (hkCode s) g true false false false false false false s.hk.passes (lastValue s)
        | some v => resultBits (hkCode s) g false (decide (0 < s.hk.settle)) false false (c.2 || (eFmt e == 2 && v.2))
            (decide (eInteg e < 4 * s.hk.paused)) (decide (0 < s.hk.excLeft)) s.hk.passes (valueField e c.1 v.1)]) ∧
  (∀ s v q, s.hk.outQ = v :: q → Completes .hkbufWrite s [.hk, .irq] fun t => t.hk.outQ = q ∧ tget 0 t.hk.buf s.hk.wr = v ∧
    (∀ k, k ≠ s.hk.wr → tget 0 t.hk.buf k = tget 0 s.hk.buf k) ∧ t.hk.wr = (s.hk.wr + 1) % 4096 ∧ t.hk.unread = min 4096 (s.hk.unread + 1) ∧
    t.hk.rd = (if 4096 ≤ s.hk.unread then (s.hk.rd + 1) % 4096 else s.hk.rd) ∧
    (4096 ≤ s.hk.unread → t.hk.bufOvr = true ∧ t.sys.irqPend.testBit 7 = true) ∧
    (0 < s.sys.hkIrqLvl → s.sys.hkIrqLvl ≤ t.hk.unread → t.sys.irqPend.testBit 6 = true)) ∧
  (∀ s x r, domUp s 18 = true → s.hk.notices = x :: r → Completes .hkPauseStart s [.hk] fun t =>
    t.hk = if amberEn (hkRd s) = true then { s.hk with notices := r, pauseAmber := true, amb := s.hk.amb ++ [x] }
      else { s.hk with notices := r }) ∧
  (∀ s n, domUp s 18 = true → s.hk.pauseAmber = true → Completes (.hkPauseEnd n) s [.hk] fun t =>
    t.hk = { s.hk with pauseAmber := false, amb := [], paused := if s.hk.pausePin = true then s.hk.paused else s.hk.paused + n }) ∧
  (∀ s level n, Completes (.hkBlankEdge level n) s [.hk] fun t => t.hk.pinLevel = level ∧
    if domUp s 18 = true ∧ blankEn (hkRd s) = true then t.hk.pausePin = (level != blankPol (hkRd s)) ∧
      t.hk.paused = if s.hk.pausePin = true ∧ t.hk.pausePin = false ∧ s.hk.pauseAmber = false then s.hk.paused + n else s.hk.paused
    else t.hk.pausePin = s.hk.pausePin ∧ t.hk.paused = s.hk.paused) ∧
  (∀ s, domUp s 18 = true → s.hk.phase = .converting → hkPaused s = true → s.hk.bgBusy = false →
    Completes .hkBlankMaxAbort s [.cal, .hk, .items, .sys] fun t => t.hk.blankAbort = min 65535 (s.hk.blankAbort + 1) ∧
      t.hk.blankedCnt = satAdd 16 s.hk.blankedCnt 1 ∧
      t.hk.outQ = s.hk.outQ ++ [resultBits (hkCode s) s.hk.curGain true false false false false true false s.hk.passes (lastValue s)]) ∧
  (∀ s i r, domUp s 18 = true → s.hk.injCur = none → s.hk.phase ≠ .selfcal → (s.hk.selfWait = true → s.hk.selfBefore ≠ 0) → s.hk.inj = i :: r →
    Completes .hkInjectHead s [.hk] fun t => t.hk.injCur = some i ∧ t.hk.inj = r ∧ t.hk.phase = .toSwitch ∧
      t.hk.resumeAt = (if seqBusy s.hk.phase = true then (if s.hk.stopDue = true then none
          else if s.hk.held ≠ none ∧ s.hk.phase ≠ .toSwitch then some (s.hk.entry + 1, 0) else some (s.hk.entry, s.hk.rep)) else s.hk.resumeAt) ∧
      t.hk.abortCnt = if s.hk.phase = .converting then satAdd 16 s.hk.abortCnt 1 else s.hk.abortCnt)

/-- Self-calibration and background recalibration replace factor sets; OPEN and SHORT declarations end an entry or flag its result -/
def Obligations.TheConverterCalibratesAndMonitors : Prop :=
  (∀ s, domUp s 18 = true → s.hk.selfWait = true → s.hk.selfBefore = 0 → s.hk.injCur = none →
    Completes .selfcalStart s [.hk] fun t => t.hk.phase = .selfcal ∧ t.hk.selfWait = false ∧ t.hk.src = []) ∧
  (∀ s fs temp, domUp s 18 = true → s.hk.phase = .selfcal → Completes (.selfcalEnd fs temp) s [.hk, .irq] fun t =>
    (∀ g < 8, hkSets t g = [⟨temp, (fs.getD g (0, 0x400000)).1, (fs.getD g (0, 0x400000)).2⟩]) ∧ t.hk.tempHk = some temp ∧
    t.hk.uncal = false ∧ t.hk.selfBusy = false ∧ t.sys.irqPend.testBit 5 = true) ∧
  (∀ s temp, domUp s 18 = true → s.hk.phase ≠ .selfcal → bgCalEn (rd s) = true → Completes (.hkBgTempMeasure temp) s [.hk] fun t =>
    t.hk.tempHk = some temp ∧ t.hk.sets = s.hk.sets ∧
    (s.hk.bgBusy = true → t.hk.bgGain = s.hk.bgGain ∧ t.hk.bgStage = s.hk.bgStage) ∧
    (s.hk.bgBusy = false → match dueGains t with
      | [] => t.hk.bgBusy = false
      | g :: _ => t.hk.bgBusy = true ∧ t.hk.bgGain = g ∧ t.hk.bgStage = 0)) ∧
  (∀ s v, domUp s 18 = true → s.hk.bgBusy = true → Completes (.hkBgCalSlotEnd v) s [.hk] fun t =>
    (s.hk.bgStage = 0 → t.hk = { s.hk with bgStage := 1, bgOffVal := v, change := true }) ∧
    (s.hk.bgStage = 1 → hkSets t s.hk.bgGain = placeHkSet ⟨s.hk.tempHk.getD 0, s.hk.bgOffVal, v.toNat⟩ (hkSets s s.hk.bgGain) ∧
      ∀ g, g ≠ s.hk.bgGain → hkSets t g = hkSets s g)) ∧
  (∀ s src short, src < 4 → domUp s 18 = true →
    let v := tget (0, 0) s.hk.src src
    let live := (v ≠ (0, 0) ∨ (s.hk.declared = true ∧ src ∈ s.hk.declOn)) ∧
      (short = false ∨ 8 ≤ v.1 ∨ s.hk.excSet = 0 ∨ shortLim (hkRd s) s.hk.excSet ≠ 0)
    let cnt := fun (t : State) => t.hk.openCnt = (if short = true then s.hk.openCnt else satAdd 16 s.hk.openCnt 1) ∧
      t.hk.shortCnt = (if short = true then satAdd 16 s.hk.shortCnt 1 else s.hk.shortCnt)
    (¬ live → exec (.excMonitorDeclare src short) s = .next s) ∧
    (live → s.hk.declared = false → [HkPhase.converting, .delay, .refWait, .pwmWait, .burnout].contains s.hk.phase = true →
      Completes (.excMonitorDeclare src short) s [.cal, .hk, .items, .sys] fun t => cnt t ∧ t.hk.declared = true ∧
        t.hk.outQ = s.hk.outQ ++ [resultBits (hkCode s) s.hk.curGain true false (!short) short false false false s.hk.passes (lastValue s)]) ∧
    (∀ l v, live → s.hk.declared = true → s.hk.outQ = l ++ [v] → Completes (.excMonitorDeclare src short) s [.hk] fun t => cnt t ∧
      t.hk.outQ = l ++ [v ||| 2 ^ (if short = true then 49 else 50)]))

/-- Requests join the list, a slot boundary reserves a pair, joins a window or refuses by kind, and a park takes the pair from its ring -/
def Obligations.TheSamplerDecidesAndParks : Prop :=
  (∀ s t0 q rest, s.samp.gateReqs = q :: rest → sampRuns s q.1 = true → Completes (.indigoRequest t0) s [.samp, .time] fun t =>
    t.samp.gateReqs = rest ∧ t.samp.reqs = s.samp.reqs ++ [⟨q.1, .indigo, q.2.2.1, max t0 q.2.2.1, q.2.1, some q.2.2.2⟩]) ∧
  (∀ s c a sid t0, c < 260 → sampRuns s c = true →
    let asked := (c, a, sid) ∈ s.samp.calReqs ∨ sid ≠ none ∨ parkTime (calGrp s (groupOf c)) a = true
    Completes (.calibrationParkRequest c a sid t0) s [.cal, .samp, .time] fun t => t.samp.calReqs = s.samp.calReqs.erase (c, a, sid) ∧
      t.samp.reqs = (if calParkOk s a sid = true ∧ asked then s.samp.reqs ++ [⟨c, .cal, 16 * a, max t0 (16 * a), 0, sid⟩] else s.samp.reqs)) ∧
  (∀ s b q, devRuns s = true → s.samp.reqs = [q] → q.at_ ≤ 16 * b →
    (∀ w, winAt s q.ch (anchorOf q) = some w → w.reason ≠ .cal →
      Completes (.slotBoundaryDecision b) s [.samp, .time] fun t => t.samp.reqs = [] ∧ t.samp.wins.length = s.samp.wins.length ∧
        (q.kind = .cal → (sampCh t q.ch).calOvf = satAdd 8 (sampCh s q.ch).calOvf 1 ∧ t.samp.wins = s.samp.wins) ∧
        (q.kind = .trigger → ∃ v ∈ t.samp.wins, v.wid = w.wid ∧ v.hasTrig = true ∧ v.trig2 = (w.trig2 || w.hasTrig) ∧
          v.reason = joinReason w.reason .trigger ∧ v.raw = ((w.reason != .cal && w.raw) || rawTrig (rd s)))) ∧
    (liveWins s q.ch = [] →
      let n := firstPair (rd s) q
      let adds := fun (k : ReqKind) (p : State → Prop) => q.kind = k → Completes (.slotBoundaryDecision b) s [.counts, .eng, .samp, .time] fun t =>
        t.samp.reqs = [] ∧ t.samp.wins = s.samp.wins ∧ p t ∧ (k ≠ .cal →
          t.fire.cnt.refused = satAdd 32 s.fire.cnt.refused 1 ∧ (q.ch < 256 → (engCh t q.ch).gapPend = true))
      if q.kind = .indigo ∧ n + 64 < max b (n + 2) then
        adds .indigo fun t => (sampCh t q.ch).lateMiss = satAdd 16 (sampCh s q.ch).lateMiss 1
      else if freePairs s q.ch = 0 ∨ (q.kind = .trigger ∧ freePairs s q.ch ≤ indReserve (rd s)) then
        (adds .trigger fun t => (sampCh t q.ch).parkOvf = satAdd 16 (sampCh s q.ch).parkOvf 1) ∧
        (adds .indigo fun t => (sampCh t q.ch).gateOvf = satAdd 16 (sampCh s q.ch).gateOvf 1) ∧
        (adds .cal fun t => (sampCh t q.ch).calOvf = satAdd 8 (sampCh s q.ch).calOvf 1)
      else Completes (.slotBoundaryDecision b) s [.free, .samp, .time] fun t => t.samp.reqs = [] ∧ ∃ w, t.samp.wins = s.samp.wins ++ [w] ∧
        w.ch = q.ch ∧ w.slot = n ∧ w.posA = n % 64 ∧ w.posB = (n + 1) % 64 ∧ w.first = 16 * n ∧ w.raw = rawKind (rd s) q.kind ∧ w.parkAt = max b (n + 2) ∧ w.stage = .reserved ∧ w.reason = reasonOf q.kind ∧
        w.spareA ∈ (sampCh s q.ch).pool ∧ (sampCh t q.ch).pool = remNat (remNat (sampCh s q.ch).pool w.spareA) w.spareB)) ∧
  (∀ s b w, devRuns s = true → s.samp.wins.filter (fun w => w.stage == .reserved && decide (w.parkAt ≤ b)) = [w] → w.posA ≠ w.posB →
    Completes (.parkInstant b) s [.samp, .time] fun t =>
      let x := fun (s : State) p => tget p (sampCh s w.ch).ring p
      (∃ v ∈ t.samp.wins, v.wid = w.wid ∧ v.stage = .parked ∧ v.segA = x s w.posA ∧ v.segB = x s w.posB ∧
        v.rtag = (front s w.ch).range ∧ v.sat = satOver (front s w.ch) w.first ∧ v.cycle = convCycle (16 * b)) ∧
      x t w.posA = w.spareA ∧ x t w.posB = w.spareB ∧ ∀ p, p ≠ w.posA → p ≠ w.posB → x t p = x s p) ∧
  (∀ s c b n r, c < 260 → sampRuns s c = true → (sampCh s c).redun = n :: r →
    let k := tget (b % 64) (sampCh s c).ring (b % 64)
    k ∈ (sampCh s c).toRetire → Completes (.ringRelinkRetire c b) s [.cal, .hk, .samp, .time] fun t =>
      tget (b % 64) (sampCh t c).ring (b % 64) = n ∧ (sampCh t c).redun = r ∧ (sampCh t c).toRetire = remNat (sampCh s c).toRetire k ∧
      (sampCh t c).retired = (sampCh s c).retired ++ [k]) ∧
  (∀ s g, g < 9 → sampRuns s ((groupChans g).headD 0) = true → Completes (.samplerFillDone g) s [.samp] fun t =>
    ∀ c, sampCh t c = if c ∈ groupChans g then { sampCh s c with filled := true } else sampCh s c)

/-- A conversion cycle takes the parked windows, the ramp gives their codes, their segments return; saturation, re-arming, stuck-high -/
def Obligations.WindowsConvertAndSegmentsReturn : Prop :=
  (∀ s k, devRuns s = true → Completes (.conversionCycleStart k) s [.samp, .time] fun t => t.samp.conv = some (k, false) ∧
    t.samp.wins = s.samp.wins.map fun w => if w.stage = .parked ∧ (w.cycle < k ∨ w.carried = true) then { w with stage := .converting } else w) ∧
  (∀ s k cells, s.samp.conv = some (k, false) → Completes (.rampEnd cells) s [.samp] fun t => t.samp.conv = some (k, true) ∧
    t.samp.wins = s.samp.wins.map fun w => if w.stage = .converting then
      { w with stage := .converted, codes := (List.range 32).map fun i => latchCode (((lookupNat cells w.wid).getD []).getD i .none) } else w) ∧
  (∀ s w, s.samp.wins.filter (fun w => w.stage == .converted && !w.rejoined) = [w] → w.segA ∉ (sampCh s w.ch).toRetire →
    w.segB ∉ (sampCh s w.ch).toRetire → Completes .segmentsRejoin s [.samp] fun t =>
      (sampCh t w.ch).pool = (sampCh s w.ch).pool ++ [w.segA, w.segB] ∧ ∀ v ∈ t.samp.wins, v.stage = .converted → v.rejoined = true ∧ v.handed = false) ∧
  (∀ s c t0, c < 260 → sampRuns s c = true → Completes (.saturationAssert c t0) s [.fronts, .shots, .time] fun t =>
    front t c = { front s c with sat := true, satAt := if (front s c).sat = true then (front s c).satAt else t0 } ∧
    (∀ k, k ≠ c → front t k = front s k) ∧
    (c < 256 → amberAt s c t0 = false → ∀ sid x, shotOf s sid = some x → c ∈ x.group → inListen x t0 = true →
      ∃ y, shotOf t sid = some y ∧ c ∈ y.satSeen)) ∧
  (∀ s c, c < 260 → Completes (.saturationRecovery c) s [.fronts] fun t => (front t c).sat = false ∧
    ((front s c).sat = true → ((front s c).satAt, s.sys.cyc) ∈ (front t c).satLog) ∧ ∀ k, k ≠ c → front t k = front s k) ∧
  (∀ s c, c < 260 → sampRuns s c = true → Completes (.comparatorRearm c) s [.fronts] fun t =>
    front t c = { front s c with armed := true } ∧ ∀ k, k ≠ c → front t k = front s k) ∧
  (∀ s c, c < 256 → sampRuns s c = true → (front s c).armed = false → amber s c = false → suppressed s c = false →
    Completes (.stuckHighTimeout c) s [.fltQueue, .free] fun t => ∃ d, t.flt.queue = s.flt.queue ++ [(3, c, d)])

/-- The pre-fire gate applies pending ranges and thresholds, DC restoration is latched, amber ends, and a shot is judged for ranging once -/
def Obligations.GatesLatchRangesAndThresholds : Prop :=
  (∀ s sid x, shotOf s sid = some x → Completes (.preFireGateOpen sid) s [.cal, .fronts, .greys] fun t =>
    (∀ c ∈ x.group, c < 256 → domUp s (inputDom c) = true →
      (front t c).maskHeld = false ∧ (front t c).shown = (front t c).range ∧
      (front t c).range = (match (front s c).pend with | some n => if eligible s x c = true then n else (front s c).range | none => (front s c).range) ∧
      (eligible s x c = true → (front s c).pend ≠ none → (front t c).pend = none ∧ (front t c).upCnt = 0 ∧ (front t c).downCnt = 0) ∧
      (front t c).thr = if thrCfar (rd s) (c / 32) = true then max 1 (grey t c).thr else chThr (rd s) c) ∧
    (x.sin < 4 → (front t (256 + x.sin)).thr = sinThr (rd s) x.sin)) ∧
  (∀ s sid x cur, shotOf s sid = some x → x.group.Nodup → (∀ c ∈ x.group, c < 256) → Completes (.dcrLatch sid cur) s [.fronts, .greys] fun t =>
    (x.sin < 4 → domUp s 9 = true → front t (256 + x.sin) = latchDcr s.sys.now ((lookupNat cur (256 + x.sin)).getD 0) (front s (256 + x.sin))) ∧
    ∀ c ∈ x.group, domUp s (inputDom c) = true → front t c = latchDcr s.sys.now ((lookupNat cur c).getD 0) (front s c) ∧
      (grey t c).dcrSum = (grey s c).dcrSum + (front t c).dcr ∧ (grey t c).dcrNum = (grey s c).dcrNum + 1) ∧
  (∀ s sid b e above, b < 8 → amberEndAt s sid b = some e → Completes (.amberEnd sid (b, above)) s [.fronts, .shots, .time] fun t =>
    s.sys.cyc ≤ t.sys.cyc ∧ e ≤ 8 * t.sys.cyc ∧ ∀ c, front t c = if c / 32 = b ∧ blankedByShot (front s c) sid = true then
      { front s c with
        blankedBy := (front s c).blankedBy.filter fun p => p.1 != sid
        armed := if amberAt t c t.sys.cyc = true then (front s c).armed else !above.contains c } else front s c) ∧
  (∀ s sid x peaks, shotOf s sid = some x → x.ended = true →
    if x.evaluated = true then exec (.rangeEvaluate sid peaks) s = .next s
    else x.group.Nodup → Completes (.rangeEvaluate sid peaks) s [.fronts, .shots] fun t => (∃ y, shotOf t sid = some y ∧ y.evaluated = true) ∧
      ∀ c ∈ x.group, domUp s (inputDom c) = true →
        front t c = evalRange (rd s) c (x.satSeen.contains c) ((lookupNat peaks c).getD 0) (front s c)) ∧
  (∀ s c n, c < 260 → (opState s = .idle ∨ opState s = .armed ∨ opState s = .hold ∨ opState s = .safe) → domUp s (inputDom c) = true →
    (front s c).pend = some n → Completes (.rangeApplyIdle c) s [.fronts, .greys] fun t =>
      front t c = { front s c with range := n, pend := none, upCnt := 0, downCnt := 0 } ∧
      (c < 256 → (grey t c).thr = cfarCode (rd s) c n (grey s c)))

/-- A crossing closes the comparator; a trigger is noted in its shots, asks for a park, and matches zone gates; pins hold and expire -/
def Obligations.CrossingsAreTriggersAndZoneDetections : Prop :=
  (∀ s c t0, c < 256 → crosses s c t0 = false → Completes (.trigger c t0) s [.fronts] fun t =>
    front t c = { front s c with armed := (front s c).armed && (front s c).thr == 0 } ∧ ∀ k, k ≠ c → front t k = front s k) ∧
  (∀ s c t0, c < 256 → crosses s c t0 = true → Completes (.trigger c t0) s [.cal, .fltQueue, .free, .fronts, .samp, .shots, .time, .zone] fun t =>
    (front t c).lastTrig = some t0 ∧ (front t c).armed = false ∧ (∀ k, k ≠ c → front t k = front s k) ∧
    (∀ sid x, shotOf s sid = some x → ∃ y, shotOf t sid = some y ∧
      y.trigs = if c ∈ x.group ∧ inListen x t0 = true then x.trigs ++ [(c, t0)] else x.trigs) ∧
    t.samp.reqs = (if listening s c t0 = true then s.samp.reqs ++ [⟨c, .trigger, t0, t0 + 4, 0, none⟩] else s.samp.reqs) ∧
    t.flt.queue.length = s.flt.queue.length +
      (s.fire.shots.filter fun x => x.group.contains c && inListen x t0 && trigCount x c == trigLimit (rd s) (c / 32)).length ∧
    (∀ x ∈ s.fire.shots, ∀ g ∈ gateHits (rd s) c (zoneTime x t0), c ∈ x.group → inListen x t0 = true → (c, g) ∉ x.zoneHits →
      ∃ e ∈ t.zone.queue, e.1 = c ∧ (x.sid, g) ∈ e.2)) ∧
  (∀ s i t0, i < 4 → crosses s (256 + i) t0 = false → Completes (.startTrigger i t0) s [.fronts] fun t => ∀ k, k ≠ 256 + i → front t k = front s k) ∧
  (∀ s i t0, i < 4 → crosses s (256 + i) t0 = true → Completes (.startTrigger i t0) s [.cal, .fronts, .samp, .shots, .time] fun t =>
    (front t (256 + i)).lastTrig = some t0 ∧ (front t (256 + i)).armed = false ∧
    t.samp.reqs = (if accepting s i t0 = true then s.samp.reqs ++ [⟨256 + i, .trigger, t0, t0 + 4, 0, none⟩] else s.samp.reqs) ∧
    (∀ sid x, shotOf s sid = some x → x.sin = i → x.sStamp = none → (acceptEdges (rd s) x t0).contains 0 = true →
      ∃ y, shotOf t sid = some y ∧ y.sStamp = some t0 ∧ y.startWait = true)) ∧
  (∀ s c sid g, c < 256 → s.zone.queue.find? (fun e => e.1 == c) = some (c, [(sid, g)]) →
    let l := (tget [] s.zone.hist (2 * c + g)).map fun e => if e.1 = sid then (e.1, true) else e
    Completes (.zoneEventService c) s [.zone] fun t => t.zone.queue = s.zone.queue.filter (fun e => e.1 != c) ∧ tget [] t.zone.hist (2 * c + g) = l ∧
      (∀ p, tget ZonePin.reset t.zone.pins p =
        if p = gatePin (rd s) c g ∧ confirms (rd s) p sid l = true then ⟨true, s.sys.now⟩ else tget ZonePin.reset s.zone.pins p)) ∧
  (∀ s p, p < 4 → let x := tget ZonePin.reset s.zone.pins p
    Completes (.zoneHoldExpiry p) s [.zone] fun t => ∀ q, tget ZonePin.reset t.zone.pins q =
      if q = p ∧ x.on = true ∧ x.since + holdTime (rd s) p ≤ s.sys.now then ZonePin.reset else tget ZonePin.reset s.zone.pins q)

/-- A code step counts its nominal time, and skips, withholds or launches the shot; edges drive, windows end; speed and dwell are guarded -/
def Obligations.TheSequencerStepsAndDrivesShots : Prop :=
  (∀ s e nom, nextShot s = some (e, nom) → stepForced s nom = some false → (frameMode (rd s) = 1 → wrapAdd 32 s.fire.shotCnt 1 < frameShots (rd s)) →
    s.fire.hdr = none →
    let c := codeOf (rd s) s e
    let s0 := advTo (ns (nom - 200)) s
    let counted := fun (t : State) => t.fire.lfsr = lfsrStep 8 s.fire.lfsr ∧ t.fire.shotCnt = wrapAdd 32 s.fire.shotCnt 1 ∧
      t.fire.cnt.shots = satAdd 32 s.fire.cnt.shots 1 ∧ (emit t e).lastNom = some nom ∧ ∀ k, k ≠ e → emit t k = emit s k
    if tooClose (rd s) s e nom = true then Completes .codeStep s [.counts, .emits, .fire, .items, .time] fun t => counted t ∧
      (emit t e).posSkip = satAdd 8 (emit s e).posSkip 1 ∧ t.fire.shots = s.fire.shots
    else if s.fire.faultInh = true then Completes .codeStep s [.counts, .emits, .fire, .items, .time] fun t => counted t ∧
      (emit t e).withheld = satAdd 8 (emit s e).withheld 1 ∧ t.fire.shots = s.fire.shots
    else s.fire.velInh = false → (dwellEn (rd s) = true → dwellCount s (dwellBin s0) + shotWeight (rd s) e ≤ dwellBudget (rd s)) →
      Completes .codeStep s [.cal, .counts, .emits, .fire, .greys, .hk, .items, .samp, .shots, .stk, .time] fun t => counted t ∧
        t.fire.nextSid = s.fire.nextSid + 1 ∧ ∃ y ∈ t.fire.shots, y.sid = s.fire.nextSid ∧ y.em = e ∧ y.nominal = nom ∧ y.d = c.2.1 ∧
          y.k = c.2.2 ∧ y.fcyc = 5 * (nom + c.2.1) ∧ y.fine = emFine (rd s) e ∧ y.n = s.fire.shotCnt ∧ y.edges.head? = some y.fcyc ∧ y.edges.length = min 3 (max 1 (emNsub (rd s) e))) ∧
  (∀ s sid j x, shotOf s sid = some x → 1 ≤ j → x.fate.getD (j - 1) 2 = 0 → inhibited s = false → devRuns s = true → opState s = .run →
    Completes (.fireEdge sid j) s [.emits, .fronts, .shots, .time, .zone] fun t => (emit t x.em).high = true ∧
      (emit t x.em).fallAt = t.sys.now + emWidth (rdAt s x.epoch) x.em ∧
      (∃ y, shotOf t sid = some y ∧ y.fate = x.fate.set (j - 1) 1) ∧
      (1 ∉ x.fate → (emit t x.em).fired = wrapAdd 32 (emit s x.em).fired 1 ∧
        ∀ c ∈ x.group, domUp s (inputDom c) = true → (sid, amberEndOf (rd s) x c) ∈ (front t c).blankedBy) ∧
      (1 ∈ x.fate → t.fronts = s.fronts ∧ (emit t x.em).fired = (emit s x.em).fired)) ∧
  (∀ s e, e < 16 → if (emit s e).high = true then Completes (.firePulseEnd e) s [.emits, .time] fun t => emit t e = { emit s e with high := false } ∧
      (emit s e).fallAt ≤ t.sys.now ∧ ∀ k, k ≠ e → emit t k = emit s k else exec (.firePulseEnd e) s = .next s) ∧
  (∀ s sid x, shotOf s sid = some x → x.sin < 4 → x.sStamp = none → x.s = none → 1 < x.edges.length →
    Completes (.startAcceptClose sid 1) s [.emits, .shots, .stk, .time] fun t => (emit t x.em).startMiss = satAdd 8 (emit s x.em).startMiss 1 ∧
      ∃ y, shotOf t sid = some y ∧ y.s = some (sinNom (rdAt s x.epoch) x.sin) ∧ y.lowconf = true) ∧
  (∀ s sid x, shotOf s sid = some x → x.ended = false → x.group.Nodup → Completes (.listenWindowEnd sid) s [.fronts, .shots, .time] fun t =>
    (∃ y, shotOf t sid = some y ∧ y.ended = true ∧ y.horizon = horizon (rd s)) ∧
    ∀ c ∈ x.group, (front t c).satCnt = if c ∈ x.satSeen then satAdd 14 (front s c).satCnt 1 else (front s c).satCnt) ∧
  (∀ s, domUp s 9 = true →
    let u := advNow s.fire.speedAt s
    let a := coreAngle u 0
    let v := if domUp s 19 = true then turnDist a s.fire.speedLast else 0
    let f := { s.fire with speedLast := a, speedAt := u.sys.now + 5000 }
    if opState s ≠ .run then Completes .velocityEstimate s [.fire, .time] fun t =>
      t.sys.now = u.sys.now ∧ t.fire = { f with belowFor := 0, aboveFor := 0 }
    else if vmin (rd s) ≠ 0 ∧ v < vmin (rd s) then
      if s.fire.velInh = true ∨ s.fire.belowFor + 1 < vtime (rd s) then Completes .velocityEstimate s [.fire, .time] fun t =>
        t.fire = { f with belowFor := s.fire.belowFor + 1, aboveFor := 0 }
      else if dwellSafe (rd s) = true then Completes .velocityEstimate s (.time :: protParts) fun t => safeDeclared s t
      else Completes .velocityEstimate s [.counts, .emits, .fire, .fltQueue, .free, .fronts, .hk, .samp, .shots, .stk, .time] fun t => t.fire.velInh = true ∧
        (∀ x ∈ t.fire.shots, 0 ∉ x.fate) ∧ ∃ l, t.flt.queue = s.flt.queue ++ l ∧ (∀ e ∈ l, e.1 = 6 ∧ e.2.1 = 0) ∧
          l.length = (s.fire.shots.filter fun x => x.fate.contains 0 && !x.fate.contains 1).length + 1
    else Completes .velocityEstimate s [.fire, .time] fun t => t.fire = { f with
      belowFor := 0, aboveFor := s.fire.aboveFor + 1,
      velInh := s.fire.velInh && decide (s.fire.aboveFor + 1 < dwellResume (rd s)) }) ∧
  (∀ s, domUp s 9 = true → Completes .dwellSubintervalRoll s [.fire, .time] fun t => s.fire.dwellEnd ≤ t.sys.now ∧
    t.fire.dwellEnd = s.fire.dwellEnd + subLength (rd s) ∧ t.fire.dwellSlot = (s.fire.dwellSlot + 1) % 16 ∧
    ∀ b k, k < 16 → tget 0 t.fire.dwell (16 * b + k) = if k = t.fire.dwellSlot then 0 else tget 0 s.fire.dwell (16 * b + k))

/-- Windows are claimed and enter home queues; engines take, steal and end tasks; stacked windows and spills follow their rules -/
def Obligations.WindowsReachTheirEngines : Prop :=
  (∀ s b w, b < 9 → nextHandoff s b = some w →
    (∀ sid x k, w.ch < 256 → w.reason = .trigger → claimOf s w = some sid → shotOf s sid = some x → x.released = false →
      homeEngine s w.ch = some k → (engine s k).queue.length < 64 → allRetired s = false →
      Completes (.windowHandoff b) s [.eng, .samp, .shots] fun t =>
        engine t k = { engine s k with queue := (engine s k).queue ++ [.win w sid s.cfg.epoch] } ∧ (∀ j, j ≠ k → engine t j = engine s j) ∧
        (∃ y, shotOf t sid = some y ∧ y.claimed = x.claimed + 1) ∧ ∀ v ∈ t.samp.wins, v.wid = w.wid → v.handed = true) ∧
    (w.ch < 256 → w.reason = .trigger → claimOf s w = none → Completes (.windowHandoff b) s [.counts, .eng, .samp] fun t =>
      engCh t w.ch = { engCh s w.ch with late := satAdd 8 (engCh s w.ch).late 1, gapPend := true } ∧
      t.fire.cnt.lost = satAdd 32 s.fire.cnt.lost 1) ∧
    (256 ≤ w.ch → w.reason ≠ .cal → startServers s ≠ [] → Completes (.windowHandoff b) s [.eng, .samp] fun t =>
      t.eng.startQ = s.eng.startQ ++ [.start w s.cfg.epoch])) ∧
  (∀ s c i u k, c < 256 → i < 4 → domUp s 14 = true → s.stk.openStacks.find? (fun u => u.ch == c && u.idx == i && u.claim.isSome) = some u →
    u.owed.any (gateLive s c i) = false → (∀ q ∈ u.comps, q.s ≠ none) →
    if u.comps.length < stackKMin (rd s) then Completes (.stackedWindowEnter c i) s [.shots, .stk] fun t =>
      t.stk.openStacks = s.stk.openStacks.filter (fun v => !(v == u)) ∧
      t.stk.stkDisc = satAdd 16 s.stk.stkDisc (s.stk.openStacks.filter (fun v => v == u)).length
    else homeEngine s c = some k → (engine s k).queue.length < 64 → allRetired s = false → Completes (.stackedWindowEnter c i) s [.eng, .stk] fun t =>
      t.stk.openStacks = s.stk.openStacks.erase u ∧ t.stk.stkDone = wrapAdd 32 s.stk.stkDone 1 ∧
      (engine t k).queue = (engine s k).queue ++ [.stk (formWindow u (u.claim.getD 0) (stackK (rd s) i)) s.cfg.epoch]) ∧
  (∀ s k, k < 64 → engineIdle s k = true →
    (∀ a r, k ∈ startServers s → s.eng.startQ = a :: r → Completes (.engineTakeTask k) s [.eng] fun t =>
      (engine t k).cur = some a ∧ t.eng.startQ = r ∧ (engine t k).queue = (engine s k).queue) ∧
    (∀ a, (k ∈ startServers s → s.eng.startQ = []) → (engine s k).queue.find? (mayStart s) = some a → Completes (.engineTakeTask k) s [.eng] fun t =>
      engine t k = { engine s k with cur := some a, queue := (engine s k).queue.erase a } ∧ t.eng.startQ = s.eng.startQ) ∧
    (∀ j, (engine s k).queue = [] → victimOf (rd s) s k = some j → Completes (.steal k) s [.eng] fun t =>
      let n := min (stealBatch (rd s)) (engine s j).queue.length
      (engine t k).queue = (engine s j).queue.take n ∧ (engine t j).queue = (engine s j).queue.drop n ∧
      (engine t k).stolen = wrapAdd 32 (engine s k).stolen n)) ∧
  (∀ s k w sid ep x, k < 64 → (engine s k).cur = some (.win w sid ep) → shotOf s sid = some x → x.released = false → codedAt s x ep = false →
    let r := rdAt s ep
    let f := frontSteps r (calChAt s ep w.ch) false w
    let tp := tplOf r x.em w.rtag
    Completes (.windowTaskDone k) s [.eng, .free, .shots] fun t => (engine t k).cur = none ∧
      (if w.raw = true then ∃ b, t.eng.raws = s.eng.raws ++ [⟨sid, w.ch, b⟩] else t.eng.raws = s.eng.raws) ∧
      (∃ y, shotOf t sid = some y ∧ y.done = x.done + 1) ∧
      t.eng.echoes = s.eng.echoes ++ (candidates r x.em tp (windowStart x w) w.rtag w.sat (w.reason == .indigo || w.reason == .both) w.codes
        (fun _ => candLevel r (greyAt s ep w.ch) w.rtag) f.2 (filterStep r x.em tp f.2)).map (echoOf w.ch sid (calChAt s ep w.ch).held)) ∧
  (∀ s q i, s.stk.spills = [q] → q.items = [i] → q.since = none → Completes .spillComplete s [.arch, .link, .stk, .time] fun t =>
    q.readAt + 320 ≤ t.sys.now ∧ if spillBlocked q i s = true then ∃ n, t.stk.spills = [{ q with since := some n }]
      else t.stk.spills = [] ∧ (q.victim ≠ none → t.stk.freeIdle = true)) ∧
  (∀ s q i l rest, s.stk.spills = q :: rest → q.items = i :: l → q.since ≠ none → if spillBlocked q i s = true then exec .spillResume s = .next s
    else Completes .spillResume s [.arch, .link, .stk] fun t =>
      t.stk.spills = { q with items := l, readAt := s.sys.now, since := none } :: rest ∧ t.stk.spillWait = waitCount s)

/-- Finish tasks are made, wait and are done; memory errors are counted; microcode swaps; the oldest group is released once -/
def Obligations.GroupsAreFinishedAndReleased : Prop :=
  (∀ s sid c x k, c < 256 → shotOf s sid = some x → x.ended = true → x.released = false → windowsIn s x = true → c ∈ x.coded → c ∉ x.finMade →
    (allTasks s).any (isWinOf sid c) = false → homeEngine s c = some k → (engine s k).queue.length < 64 →
    Completes (.finishTaskCreate sid c) s [.eng, .shots] fun t => (engine t k).queue = (engine s k).queue ++ [.fin sid c s.cfg.epoch] ∧
      ∃ y, shotOf t sid = some y ∧ y.finMade = x.finMade ++ [c] ∧ y.finOut = x.finOut ++ [c]) ∧
  (∀ s k p, k < 64 → (engine s k).queue.length < 64 → s.eng.finWait.find? (fun p => homeEngine s p.2.1 == some k) = some p →
    Completes (.finishTaskEnter k) s [.eng] fun t => (engine t k).queue = (engine s k).queue ++ [.fin p.1 p.2.1 p.2.2] ∧ t.eng.finWait = s.eng.finWait.erase p) ∧
  (∀ s k sid c ep x, k < 64 → (engine s k).cur = some (.fin sid c ep) → shotOf s sid = some x → x.released = false →
    Completes (.finishTaskDone k) s [.eng, .shots] fun t => (engine t k).cur = none ∧
      t.eng.cands = s.eng.cands.filter (fun p => !(p.1 == sid && p.2.1 == c)) ∧ (∃ y, shotOf t sid = some y ∧ y.finOut = remNat x.finOut c) ∧
      ∃ l, t.eng.echoes = s.eng.echoes ++ l ∧ ∀ e ∈ l, e.ch = c ∧ e.sid = sid) ∧
  (∀ s k m, k < 64 → eccUp s k m = true →
    let o := eccOwner k m
    let own := m = .localMem ∨ m = .queueMem
    (Completes (.eccSingle k m) s [.eng, .fltQueue, .free] fun t => (engine t o).eccCorr = satAdd 8 (engine s o).eccCorr 1 ∧
      ∃ d, t.flt.queue = s.flt.queue ++ [(1, o, d)]) ∧
    (∀ readers, Completes (.eccDouble k m readers) s [.counts, .emits, .eng, .fltQueue, .free, .shots, .stk] fun t =>
      (engine t o).eccUnc = satAdd 8 (engine s o).eccUnc 1 ∧ (∃ d, t.flt.queue = s.flt.queue ++ [(1, o, d)]) ∧
      (own → (engine t k).reload = true ∧ (engine t k).cur = none) ∧
      (∀ j ∈ readers, (m = .sharedMem ∧ j / 16 = k / 16) ∨ m = .stackMem → (engine t j).cur = none) ∧
      (∀ w sid ep, own → (engine s k).cur = some (.win w sid ep) → w.ch < 256 →
        (engCh t w.ch).eccDrop = satAdd 8 (engCh s w.ch).eccDrop 1 ∧ t.fire.cnt.lost = satAdd 32 s.fire.cnt.lost 1)) ∧
    (Completes (.engineReloadDone k) s [.eng] fun t => engine t k = { engine s k with reload := false } ∧ ∀ j, j ≠ k → engine t j = engine s j)) ∧
  (∀ s, s.sys.rdy = true → s.upd.running ≠ 7 → oldBankBusy s = false → Completes (.slateMarkReady (partVersion s s.upd.running 1)) s [.eng, .upd] fun t =>
    let v := if (List.range 4).any (quarterUp s) = true then partVersion s s.upd.running 1 % 65536 else 0
    let b := fun (s : State) q => tget ([], []) s.eng.stores q
    let code := partBytes s s.upd.running 1 32768
    if running s = true then t.eng.mcSlate = v ∧ t.eng.slateReady = true ∧ t.eng.mcActive = s.eng.mcActive ∧ t.upd = s.upd ∧
      (∀ q, q < 4 → b t q = if quarterUp s q = true then ((b s q).1, code) else b s q)
    else t.eng.mcActive = v ∧ t.eng.mcSlate = 0 ∧ t.eng.slateReady = false ∧ t.upd.versNext = none ∧
      (∀ q, q < 4 → b t q = if quarterUp s q = true then (code, (b s q).1) else ((b s q).2, (b s q).1)) ∧
      (∀ n, s.upd.versNext = some n → t.upd.versEng = n.1 ∧ t.upd.versStr = n.2.1 ∧ t.upd.versLnk = n.2.2)) ∧
  (∀ s x, oldestShot s = some x →
    let released := fun (c : Instr) =>
      Completes c s [.arch, .cal, .cfg, .counts, .emits, .eng, .free, .items, .link, .shots, .stk, .upd] fun t =>
        (∀ y ∈ t.fire.shots, y.sid = x.sid → y.released = true) ∧ t.eng.echoes = s.eng.echoes.filter (fun e => e.sid != x.sid) ∧
        t.eng.raws = s.eng.raws.filter (fun w => w.sid != x.sid)
    (if groupReady s x = true then released .groupRelease else exec .groupRelease s = .next s) ∧
    (if atHorizon s x = true then released .releaseHorizon else exec .releaseHorizon s = .next s))

/-- INDEX, FSYNC and the limit end a frame or are deferred; the gap opens once its windows are over, with the token, and closes at T_f -/
def Obligations.FramesEndInAGap : Prop :=
  let ends := fun (c : Instr) s ev limit => Completes c s [.casc, .counts, .emits, .fire, .hk, .samp, .shots, .stk, .sys, .time] fun t =>
    (s.fire.defers < deferMax (rd s) ∧ t.fire.ending = none ∧ t.fire.defers = s.fire.defers + 1 ∧
      t.sys.deferCnt = satAdd 16 s.sys.deferCnt 1 ∧ t.fire.cnt.defer = satAdd 8 s.fire.cnt.defer 1) ∨
    ∃ g, ev ≤ g ∧ t.fire.ending = some ⟨ev, g, decide (deferMax (rd s) ≤ s.fire.defers), limit⟩ ∧ t.fire.defers = s.fire.defers
  (∀ s (t0 : Nat), let s1 := advTo t0 s
    canEnd s1 = true → devRuns s = true → cascMaster s = false → let ev := (t0 + 4) / 5
    (frameMode (rd s) = 0 → domUp s 19 = true → ends (.indexCrossing t0) s ev false) ∧
    (∀ r, frameMode (rd s) = 2 → r = (!fsyncEdgeSel (rd s)) → ends (.fsyncEdge r t0) s ev false) ∧
    (frameMode (rd s) ≠ 1 → frameLimit (rd s) ≠ 0 → s.fire.tf + 10000000 * frameLimit (rd s) ≤ ev → ends (.frameLimitExpiry t0) s ev true)) ∧
  (∀ s (t0 : Nat), devRuns s = true → ownsFrames s = false → s.sys.timeSet = none → s.fire.started = true →
    (∀ g ∈ s.fire.gapAt :: s.casc.events.filterMap (fun p => match p.1 with | .frameEnd g _ _ => some g | _ => none),
      5 < ((t0 : Int) - 5 * g).natAbs) →
    Completes (.fsyncEdge true t0) s [.casc, .irq, .time] fun t => t.casc = { s.casc with syncErr := satAdd 8 s.casc.syncErr 1 } ∧
      t.sys.irqPend.testBit 11 = true) ∧
  (∀ s (t0 : Nat), devRuns s = true → s.cfg.token = false → ownsFrames s = true → cascMaster s = false →
    let l := [StatePart.arch, .axA, .axB, .cal, .casc, .cfg, .counts, .devState, .emits, .eng, .faults, .fire, .flash, .flashOp, .free, .fronts,
      .greys, .hk, .irq, .items, .link, .replies, .resume, .shots, .stk, .sys, .time, .upd, .zone]
    let g := (t0 + 4) / 5
    let opened := fun (t : State) g => t.fire.gap = true ∧ t.fire.gapAt = g ∧ t.fire.tf = g + frameGap (rdNext s) ∧ t.fire.opens = true ∧
      t.fire.ending = none ∧ t.fire.defers = 0 ∧ t.cfg.token = true
    (opState s = .armed → s.sys.statePend = true → s.sys.stateTarget = 3 → Completes (.boundaryGapOpen t0) s l fun t =>
      opened t g ∧ opState t = .run ∧ t.sys.statePend = false ∧ t.fire.first = true) ∧
    (∀ e, runAwaits s = false → running s = true → s.fire.gap = false → s.fire.ending = some e → e.g ≤ g → windowsOver s t0 = true →
      allStepped s (if e.forced = true then e.g else e.ev) = true →
      let g1 := max e.g (devNs s)
      let soon := tooSoon g1 (frameGap (rdNext s)) ((nextShot s).map fun p => p.2) s
      if soon = true ∧ e.forced = false ∧ s.fire.defers < deferMax (rd s) then Completes (.boundaryGapOpen t0) s [.counts, .fire, .sys, .time] fun t =>
        t.fire.ending = none ∧ t.fire.defers = s.fire.defers + 1 ∧ t.sys.deferCnt = satAdd 16 s.sys.deferCnt 1
      else Completes (.boundaryGapOpen t0) s l fun t =>
        t.fire.closes = true ∧ t.cfg.token = true ∧ t.sys.forcedCnt = satAdd 16 s.sys.forcedCnt (b2n (e.forced || soon)) ∧
        (s.sys.statePend = false → opened t g1) ∧
        (s.sys.statePend = true → s.sys.stateTarget ≠ 3 → t.fire.started = false ∧ t.fire.gap = false ∧ t.sys.statePend = false ∧
          opState t = stateOf s.sys.stateTarget))) ∧
  (∀ s (t0 : Nat), s.fire.gap = true → s.fire.opens = true → s.cfg.token = false → s.fire.tf ≤ (t0 + 4) / 5 →
    Completes (.gapEnd t0) s [.fire, .time] fun t => t.fire = { s.fire with gap := false }) ∧
  (∀ s (t0 : Nat), running s = true → schedPos (rd s) = true → domUp s 19 = true → devRuns s = true → s.sys.cascRole = false →
    let cell := posCellOf (rd s) (coreAngle (advTo t0 s) 0)
    cell ≠ s.fire.posCell → Completes (.positionCrossing t0) s [.counts, .fire, .free, .sys, .time] fun t => t.fire.lastCross = some t0 ∧
      t.fire.posCell = posToward (posCells (rd s)) s.fire.posCell cell ∧ ∃ f ≤ 10,
      t.fire.sched = s.fire.sched ++ (enabledEmitters s).map fun e => (e, (t0 + 4) / 5 + 255 + f + emPhase (rd s) e))

/-- A token crosses each domain once and makes the fixed set ACTIVE when all have acknowledged; in SAFE a set applies without a gap -/
def Obligations.TheTokenMakesTheSetActive : Prop :=
  (∀ s d, s.cfg.token = true → d ∈ s.cfg.waiting →
    Completes (.tokenArrival d) s [.arch, .axA, .axB, .cfg, .counts, .emits, .eng, .faults, .fire, .free, .fronts, .greys, .hk, .irq, .items, .link,
      .replies, .shots, .stk, .sys, .upd, .zone] fun t =>
      t.cfg.waiting = s.cfg.waiting.filter (· != d) ∧ t.cfg.crossed = d :: s.cfg.crossed ∧ t.cfg.token = true ∧ t.cfg.active = s.cfg.active ∧
      t.cfg.epoch = (if d = .core then s.cfg.epoch + 1 else s.cfg.epoch)) ∧
  (∀ s d, s.cfg.token = false ∨ d ∉ s.cfg.waiting → exec (.tokenArrival d) s = .next s) ∧
  (∀ s, s.cfg.token = true → s.cfg.waiting = [] → Completes .tokenAck s [.cfg, .irq, .sys] fun t =>
    (∀ id, tget [] t.cfg.active id = if id ∈ s.cfg.fixedBlocks then tget [] s.cfg.fixed id else tget [] s.cfg.active id) ∧
    t.cfg.token = false ∧ t.cfg.fixedBlocks = [] ∧ t.cfg.pend = s.cfg.pend ∧ t.cfg.slate = s.cfg.slate ∧
    match s.cfg.fixedId with
    | some n => t.sys.appliedId = n ∧ t.sys.irqPend.testBit 1 = true
    | none => t.sys = s.sys) ∧
  (∀ s, opState s = .safe → s.cfg.token = false → (devRuns s = true → windowsOver s s.sys.cyc = true) →
    Completes .safePendingApply s [.arch, .axA, .axB, .cal, .cfg, .counts, .emits, .eng, .faults, .fire, .flash, .flashOp, .free, .fronts, .greys, .hk,
      .irq, .items, .link, .replies, .shots, .stk, .sys, .upd, .zone] fun t =>
      (∀ x m, (axis t x).pendMode = some m → m.wait = false) ∧ t.cfg.token = setWaits s ∧ t.fire.gap = s.fire.gap)

/-- CASC_ROLE, CASC_ID and BOOT_SRC take their values at the release of RESETn, and no command changes them otherwise -/
def Obligations.StrapsAreSampledOnlyAtRelease : Prop :=
  ∀ c s t, exec c s = .next t →
    (match c with
      | .resetnRelease role id boot _ =>
        (t.sys.cascRole, t.sys.cascId, t.sys.bootSrc) =
          if s.sys.resetLow = true then (role, id, boot) else (s.sys.cascRole, s.sys.cascId, s.sys.bootSrc)
      | _ => (t.sys.cascRole, t.sys.cascId, t.sys.bootSrc) = (s.sys.cascRole, s.sys.cascId, s.sys.bootSrc))

/-- Reset clears all but flash and OTP; the boot checks a slot and starts it, or RECOVERY; cold, warm and after a mismatch -/
def Obligations.ResetClearsAndTheBootStarts : Prop :=
  let cold := fun (s t : State) =>
    t = { State.reset with pending := s.pending, sys := t.sys, flash := t.flash, pwr := t.pwr, upd := { Upd.reset with counter := s.upd.counter }, flt := { Flt.reset with log := s.flt.log, logPos := s.flt.logPos, logSeq := s.flt.logSeq } } ∧
    t.sys = { Sys.reset with free := t.sys.free, resetLow := t.sys.resetLow, porLow := t.sys.porLow, cascRole := s.sys.cascRole, cascId := s.sys.cascId, bootSrc := s.sys.bootSrc } ∧
    t.flash = { Flash.reset with bytes := t.flash.bytes, table := s.flash.table } ∧ t.pwr.on = [0] ∧
    ∀ a, (∀ o, s.flash.op = some o → a < o.off ∨ o.off + max o.erase o.data.length ≤ a) →
      flashByte t.flash.bytes a = flashByte s.flash.bytes a
  let recovery := fun (t : State) slot => t.sys.devState = .recovery ∧ t.sys.rdy = true ∧ t.upd.act = 0 ∧ t.upd.running = 7 ∧ t.upd.recovSlot = slot ∧ t.upd.stage = 7
  let booting := fun (s t : State) ok => t.upd = { s.upd with act := 4, warm := false } ∧ t.flash.used = ok ∧ t.flash.mode = (if ok = true then 1 else 0) ∧
    (t.flash.addr4 = true ↔ ok = true ∧ 24 < t.flash.table.dens) ∧ t.flash.bytes = s.flash.bytes
  (∀ s, ∃ t, exec .resetnAssert s = .next t ∧ cold s t ∧ t.sys.resetLow = true ∧ t.sys.porLow = s.sys.porLow) ∧
  (∀ s, ∃ t, exec .powerOnReset s = .next t ∧ cold s t ∧ t.sys.porLow = true ∧ t.sys.resetLow = s.sys.resetLow) ∧
  (∀ role id boot tbl s, id < 8 → s.sys.resetLow = true → Completes (.resetnRelease role id boot tbl) s [.flash, .sys, .upd] fun t =>
    t.sys = { s.sys with resetLow := false, cascRole := role, cascId := id, bootSrc := boot } ∧ t.flash.table = tbl ∧
    (s.sys.porLow = false → booting s t (flashAccepted tbl)) ∧ (s.sys.porLow = true → t.upd = s.upd)) ∧
  (∀ s, s.sys.porLow = true → Completes .powerOnResetRelease s [.flash, .sys, .upd] fun t => t.sys = { s.sys with porLow := false } ∧
    (s.sys.resetLow = false → booting s t (flashAccepted s.flash.table)) ∧ (s.sys.resetLow = true → t.upd = s.upd)) ∧
  (∀ sA tA sB tB s, s.upd.act = 4 → (bootRec s).trial = none →
    let n := (bootRec s).active
    let e := if n = 0 then fullCheck s 0 sA tA else fullCheck s 1 sB tB
    Completes (.bootVerifyComplete sA tA sB tB) s [.devState, .flash, .irq, .resume, .sys, .upd] fun t =>
      if s.upd.warm = false ∧ s.sys.bootSrc = false then recovery t 0
      else if s.flash.used = false then recovery t n
      else if e ≠ 0 then recovery t n ∧ t.upd.reason = e
      else t.upd.act = 5 ∧ t.upd.running = n ∧ t.upd.versSup = partVersion s n 0 ∧ t.sys = s.sys ∧
        t.upd.versNext = some (partVersion s n 1, partVersion s n 2, partVersion s n 3) ∧
        t.flash.mode = (if (bootRec s).rdmode % 4 = 2 then 2 else 1) ∧ t.flash.quad = (s.flash.quad || decide ((bootRec s).rdmode % 4 = 2)) ∧
        t.upd.counter = max s.upd.counter (manSvn s n % 64)) ∧
  (∀ s, s.sys.devState = .boot → s.upd.act = 5 → s.sys.resume = none →
    Completes .calStoreLoad s [.cal, .devState, .eng, .irq, .samp, .sys, .upd] fun t => t.upd.versNext = none ∧ t.sys.tempHold = (s.sys.tempHold || !domUp s 18) ∧ t.sys.devState = .idle ∧ t.sys.rdy = true ∧ t.upd.act = 0 ∧
      t.sys.irqPend.testBit 2 = true ∧ t.cal.defaults = (if s.flash.used then newestOwn s.flash.bytes else none).isNone) ∧
  (∀ s, s.upd.act = 5 → ¬ (s.sys.devState = .boot ∧ s.sys.resume = none) →
    Completes .warmStart s [.cal, .casc, .devState, .eng, .hk, .irq, .link, .port, .replies, .resume, .samp, .sys, .upd] fun t =>
      t.sys.devState = (if s.sys.devState = .boot then s.sys.resume.getD .boot else s.sys.devState) ∧ t.upd.act = 0 ∧
      t.sys.irqPend.testBit 2 = true ∧ t.sys.irqPend.testBit 10 = true ∧ (portsQuiet s → t.sys.rdy = true)) ∧
  (∀ s, s.sys.resetLow = false → s.sys.porLow = false →
    if s.sys.devState = .recovery ∧ s.upd.act ≠ 6 ∨ s.upd.act = 4 ∨ s.upd.act = 5 then
      Completes .lockstepMismatch s [.fltQueue, .free] fun t => ∃ d, t.flt.queue = s.flt.queue ++ [(9, 0, d)]
    else Completes .lockstepMismatch s [.axA, .axB, .cal, .casc, .flash, .flashBytes, .flashOp, .fltQueue, .free, .fronts, .link, .pwr, .sys, .upd]
      fun t => (∃ d, t.flt.queue = s.flt.queue ++ [(9, 0, d)]) ∧ t.sys.rdy = false ∧ t.upd.act = (if s.upd.act = 6 then 4 else 5) ∧
        t.pwr.on = s.pwr.on)

/-- The page buffer is programmed, operations end with their check, erases stay outside the protected regions, and stores wait -/
def Obligations.TheFlashPortProgramsAndErases : Prop :=
  let inOp := fun (o : FlashOp) a => o.off ≤ a ∧ a < o.off + max o.erase o.data.length
  (∀ s a b, s.flash.page = some (a, b) → s.flash.op = none →
    let prog := some ⟨a, b.take (flashTop s - a), 0, 1, s.sys.now⟩
    Completes .pageBufferFlush s [.flash, .flashOp] (fun t => t.flash = { s.flash with page := none, op := prog }) ∧
    ∀ off, off < 2 ^ 26 → Completes (.windowReadSuspend off) s [.flash, .flashOp] fun t =>
      t.flash = { s.flash with page := none, op := prog, waitRead := s.flash.waitRead || !s.flash.table.susp }) ∧
  (∀ s off, off < 2 ^ 26 → s.flash.op ≠ none → Completes (.windowReadSuspend off) s [.flash] fun t =>
    t.flash = { s.flash with waitRead := s.flash.waitRead || !s.flash.table.susp }) ∧
  (∀ s o good, s.flash.op = some o → o.user = 0 → s.cal.storing = none → s.upd.download = false →
    let ok := good && (decide (o.erase ≠ 0) || decide (flashRead (flashProg o.off o.data s.flash.bytes) o.off o.data.length = o.data))
    Completes (.flashStatusPoll true good) s [.flash, .flashBytes, .flashOp, .free, .log] (fun t => t.flash.op = none ∧
      (∀ a, ¬ inOp o a → flashByte t.flash.bytes a = flashByte s.flash.bytes a) ∧
      (ok = true → o.erase ≠ 0 → o.data = [] → ∀ a, inOp o a → flashByte t.flash.bytes a = 0xFF) ∧
      (ok = true → o.erase = 0 → ∀ k b, o.data[k]? = some b → flashByte t.flash.bytes (o.off + k) = flashByte s.flash.bytes (o.off + k) &&& b) ∧
      t.flash.verify = (if ok then s.flash.verify else min 255 (s.flash.verify + 1)) ∧ t.flash.timeouts = s.flash.timeouts ∧
      t.flash.progs = if o.erase = 0 then (s.flash.progs + 1) % 2 ^ 32 else s.flash.progs) ∧
    Completes .flashOpTimeout s [.flash, .flashBytes, .flashOp, .free, .log, .time] fun t => t.flash.op = none ∧
      o.since + opLimit s.flash.table o ≤ t.sys.now ∧
      (∀ a, ¬ inOp o a → flashByte t.flash.bytes a = flashByte s.flash.bytes a) ∧
      t.flash.timeouts = min 255 (s.flash.timeouts + 1) ∧ t.flash.verify = s.flash.verify ∧ t.flash.progs = s.flash.progs) ∧
  (∀ s good, Completes (.flashStatusPoll false good) s [] fun _ => True) ∧
  (∀ s off big, off < 2 ^ 26 → off % 4096 = 0 → s.flash.used = true → s.flash.op = none →
    if off < 0x1100000 then Completes (.flashEraseRegister off big) s [.flash] fun t => t.flash = { s.flash with wprot := min 255 (s.flash.wprot + 1) }
    else off < flashTop s → Completes (.flashEraseRegister off big) s [.flashOp] fun t =>
      t.flash.op = some ⟨off, [], if big then 0x10000 else 0x1000, 0, s.sys.now⟩) ∧
  (∀ s copy r, copy < 2 → s.flash.used = true → s.flash.op = none → 2047 ∈ bootSlots s.flash.bytes copy →
    newestIn s.flash.bytes (1 - copy) = some r → (∀ r', newestIn s.flash.bytes copy = some r' → r'.seq ≤ r.seq) →
    Completes (.bootHeaderErase copy) s [.flash, .flashBytes] fun t => ∀ a, flashByte t.flash.bytes a =
      if 0x80000 * copy ≤ a ∧ a < 0x80000 * (copy + 1) then 0xFF else flashByte s.flash.bytes a) ∧
  (∀ s, s.cal.interval = true → s.cal.storing = none → s.upd.download = false →
    (s.cal.unsaved = [] → Completes .calStoreInterval s [.cal] fun t => t.cal = { s.cal with interval := false }) ∧
    ∀ k, s.cal.unsaved ≠ [] → s.flash.used = true → s.flash.op = none → s.flash.page = none → pickFrame s.flash.bytes none = some k →
      Completes .calStoreInterval s [.cal, .flashOp] fun t => t.flash.op = some ⟨frameOff k, [], 0x10000, 1, s.sys.now⟩ ∧
        t.cal.storing = some (k, 0, false) ∧ t.cal.unsaved = [] ∧ t.cal.storeBusy = true ∧ t.cal.interval = true) ∧
  (∀ q s, Served 0x30 q s → q.payload.length = 1 →
    let gs := (List.range 9).filter fun g => (fld (qw q 0) 8 0).testBit g
    if bit (qw q 0) 13 = true ∧ s.sys.devState ≠ .idle then Turned (.calStart q) 0x30 q 7 s
    else if ∃ g ∈ gs, grpRunning s g = true then Turned (.calStart q) 0x30 q 1 s
    else if ∃ g ∈ gs, domUp s (grpDom g) = false then Turned (.calStart q) 0x30 q 10 s
    else bit (qw q 0) 13 = false → Answers (.calStart q) 0x30 q 0 [] s [.cal, .hk] fun t => ∀ g, g < 9 →
      if g ∈ gs then (calGrp t g).phase = 1 ∧ (calGrp t g).cmd = true ∧ (calGrp t g).tStart = none ∧
        (calGrp t g).phases = (if g = 8 then fld (qw q 0) 12 9 &&& 11 else fld (qw q 0) 12 9)
      else calGrp t g = calGrp s g)

/-- The ring: bad CRCs, HEARTBEAT, enumeration, FAULT, LOSS and ring loss on slave and master, PKT and forwarded requests -/
def Obligations.TheRingClosesBreaksAndForwards : Prop :=
  let inRing := fun (s : State) => s.sys.cascRole = true ∧ domUp s 9 = true
  let quiet := fun (s : State) => portsQuiet s ∧ ∀ q p, s.casc.enumReq = some (q, p) → q.org ≠ .ring
  (∀ s c, inRing s → (match c with
      | .heartbeat _ _ ok | .pkt _ _ _ _ ok | .fault _ _ ok | .loss _ ok | .enum _ ok | .ack _ _ ok => ok = false
      | _ => False) → Completes c s [.casc] fun t => t.casc = { s.casc with crcErr := min 65535 (s.casc.crcErr + 1) }) ∧
  (∀ s c, c = .ringLossSlave ∨ c = .ringReceiverLockLoss → isSlave s = true → domUp s 9 = true → s.casc.ringUp = true →
    Completes c s protParts fun t => t.casc.ringUp = false ∧ t.casc.enumOk = false ∧ t.casc.aligned = false ∧
      t.casc.ringLoss = min 65535 (s.casc.ringLoss + 1) ∧ .loss (devIdx s) ∈ t.casc.out ∧ safeDeclared s t ∧
      ∃ d, t.flt.queue = s.flt.queue ++ [(7, 0, d)]) ∧
  (∀ s, isMaster s = true → domUp s 9 = true →
    (s.casc.ringUp = true → Completes .heartbeatTimeout s [.casc, .flash, .fltQueue, .free, .irq, .link, .log, .port, .replies, .sys, .upd] fun t =>
      t.casc.ringUp = false ∧ t.casc.enumOk = false ∧ t.casc.aligned = false ∧ t.casc.ringLoss = min 65535 (s.casc.ringLoss + 1) ∧
      t.sys.irqPend.testBit 11 = true ∧ (∃ d, t.flt.queue = s.flt.queue ++ [(7, 0, d)]) ∧ (∀ f ∈ t.casc.fwd, f.reply ≠ none) ∧
      match s.casc.lossFrom with
      | some k => t.casc.breakAt = k ∧ t.casc.waitBreak = false
      | none => t.casc.waitBreak = true) ∧
    (Completes .heartbeatSend s [.casc] fun t => t.casc = { s.casc with
      ringSeq := (s.casc.ringSeq + 1) % 2 ^ 32, out := s.casc.out ++ [.heartbeat s.fire.frame s.casc.ringSeq] }) ∧
    ∀ k, s.casc.waitBreak = true → (Completes (.loss k true) s [.casc] fun t => t.casc = { s.casc with waitBreak := false, breakAt := k % 8 }) ∧
      Completes .breakAtTimeout s [.casc] fun t => t.casc = { s.casc with waitBreak := false, breakAt := 0 }) ∧
  (∀ s f n, inRing s →
    let up := { s.casc with ringUp := true, lossFrom := none }
    Completes (.heartbeat f n true) s [.casc] fun t => t.casc =
      if isSlave s = true then { up with out := s.casc.out ++ [.heartbeat f n] }
      else if s.casc.ringUp = false ∧ s.casc.enumReq ≠ none then { up with out := s.casc.out ++ [.enum []] } else up) ∧
  (∀ s k, inRing s → isSlave s = true →
    Completes (.loss k true) s [.casc] fun t => t.casc = if k = devIdx s then s.casc else { s.casc with out := s.casc.out ++ [.loss k] }) ∧
  (∀ s k n, inRing s → k ≠ devIdx s →
    if faultShare (rd s) = true then Completes (.fault k n true) s (protParts.filter (· != .fltQueue)) fun t =>
      .fault k n ∈ t.casc.out ∧ safeDeclared s t
    else Completes (.fault k n true) s [.casc] fun t => t.casc = { s.casc with out := s.casc.out ++ [.fault k n] }) ∧
  (∀ q s, Served 0x80 q s → q.payload.length = 0 →
    if isMaster s = false then Turned (.cascEnum q) 0x80 q 10 s
    else if s.casc.ringUp = true then Completes (.cascEnum q) s [.casc] fun t =>
      t.casc = { s.casc with enumReq := some (q, false), out := s.casc.out ++ [.enum []] }
    else Answers (.cascEnum q) 0x80 q 12 [] s [.casc] fun t => t.casc = { s.casc with enumReq := some (q, true) }) ∧
  (∀ s l, inRing s →
    let own : EnumEntry := ⟨devIdx s, true, Config.dieNumber % 2 ^ 20⟩
    (isSlave s = true → Completes (.enum l true) s [.casc] fun t => t.casc.enumOk = true ∧ t.casc.out = s.casc.out ++ [.enum (l ++ [own])] ∧
      ∀ k, k ∈ t.casc.present ↔ k = 0 ∨ ∃ e ∈ l ++ [own], k = e.idx % 8) ∧
    (∀ q p, isSlave s = false → s.casc.enumReq = some (q, p) → quiet s →
      let good := (own :: l).map (·.idx) |>.Nodup
      let ok := good ∧ ∀ e ∈ l, ¬ (e.role = true ∧ e.idx = 0)
      Completes (.enum l true) s [.casc, .irq, .replies] fun t => (t.casc.enumOk = true ↔ ok) ∧ t.casc.enumReq = none ∧
        (p = true → t.sys.irqPend.testBit 11 = true ∧ t.port.replies = []) ∧
        (p = false → ¬ ok → Answered 0x80 q 13 [] s t) ∧
        (p = false → ok → ∃ w, Answered 0x80 q 0 w s t ∧ w.length = l.length + 1 ∧ w[0]? = some (enumWord 0 own) ∧
          ∀ k e, l[k]? = some e → w[k + 1]? = some (enumWord (k + 1) e))) ∧
    ∀ q, isSlave s = false → s.casc.enumReq = some (q, false) → quiet s → Completes .enumTimeout s [.casc, .replies] fun t =>
      Answered 0x80 q 13 [] s t ∧ t.casc = { s.casc with enumReq := none, enumOk := false }) ∧
  (∀ s src dst b l, inRing s → src ≠ devIdx s →
    (isSlave s = true → dst ≠ devIdx s → Completes (.pkt src dst b l true) s [.casc] fun t =>
      t.casc = { s.casc with out := s.casc.out ++ [.pkt src dst b l] }) ∧
    (dst = devIdx s → l = false → Completes (.pkt src dst b l true) s [.casc] fun t =>
      tget [] t.casc.frag src = tget [] s.casc.frag src ++ b ∧ t.casc.out = s.casc.out) ∧
    ∀ f, dst = devIdx s → l = true → s.casc.fwd = [f] → f.reply = none → f.dest = src → f.req.org ≠ .ring → f.req.flags.toNat % 2 = 0 →
      s.port.buf = [] → s.port.replies = [] → s.link.rxQ = [] → ownBusy s = false →
      let p := tget [] s.casc.frag src ++ b
      packetCrcOk p = true → p.getD 0 0 = 0x6C → p.getD 1 0 = f.opc → p.getD 2 0 = f.req.seq →
      Completes (.pkt src dst b l true) s [.casc, .replies] fun t => t.casc.fwd = [] ∧ tget [] t.casc.frag src = [] ∧
        t.port.replies = [⟨f.req.org, f.opc, f.req.seq, p.getD 3 0, p.getD 6 0, wordsOf ((p.drop 8).take (4 * hdrLen p))⟩]) ∧
  (∀ s f, s.casc.fwd = [f] → f.reply = none → f.req.org ≠ .ring → s.port.buf = [] → s.port.replies = [] → s.link.rxQ = [] → ownBusy s = false →
    Completes .forwardTimeout s [.casc, .replies] fun t => t.casc = { s.casc with fwd := [], fwdTo := min 255 (s.casc.fwdTo + 1) } ∧
      t.port.replies = [⟨f.req.org, f.opc, f.req.seq, 13, BitVec.ofNat 8 f.dest, []⟩])

/-- TIME_SET loads DEVTIME, on the ring after every ACK; a slave takes the schedule events once, in time, and acts at their DEVTIME -/
def Obligations.FramesAndTimeAreSharedOnTheRing : Prop :=
  (∀ q s, Served 0x23 q s → q.payload.length = 2 →
    let v := (qw q 0).toNat + 2 ^ 32 * (qw q 1).toNat
    if v % 2000 ≠ 0 then Turned (.timeSet q) 0x23 q 8 s
    else if s.sys.devState ≠ .idle ∧ s.sys.devState ≠ .armed then Turned (.timeSet q) 0x23 q 7 s
    else if domUp s 9 = false ∨ isSlave s = true then Turned (.timeSet q) 0x23 q 10 s
    else Completes (.timeSet q) s [.casc, .sys] fun t => t.sys = { s.sys with timeSet := some (v, q), tsAt := if cascMaster s = true ∧ others s ≠ [] then 0 else loadAt 0 s } ∧
      t.casc = if cascMaster s = true ∧ others s ≠ [] then { s.casc with tsWait := some (others s), out := s.casc.out ++ [.timeSet v] } else s.casc) ∧
  (∀ s k, isMaster s = true → domUp s 9 = true → s.casc.tsWait = some [k] → Completes (.ack k .timeSet true) s [.casc, .sys] fun t =>
    t.casc = { s.casc with tsWait := none } ∧ t.sys = { s.sys with tsAt := t.sys.tsAt } ∧ t.sys.tsAt % 2 ^ 64 % 2000 = 0 ∧
    s.sys.cyc + 50000 ≤ 5 * t.sys.tsAt ∧ 5 * t.sys.tsAt < s.sys.cyc + 60005) ∧
  (∀ s k l v q, portsQuiet s → q.org ≠ .ring → s.casc.tsWait = some (k :: l) → s.sys.timeSet = some (v, q) →
    Completes .timeSetAckTimeout s [.casc, .replies, .sys] fun t => Answered 0x23 q 13 [] s t ∧ t.sys = { s.sys with timeSet := none } ∧
      t.casc = { s.casc with tsWait := none }) ∧
  (∀ s v q at_, s.sys.timeSet = some (v, q) → devRuns s = true → portsQuiet s →
    let ready := s.casc.tsWait = none ∧ (q.org = .ring ∨ s.sys.tsAt ≠ 0 ∧ at_ = 5 * s.sys.tsAt)
    (¬ ready → exec (.timeSetLoad at_) s = .next s) ∧
    (ready → Completes (.timeSetLoad at_) s [.axA, .axB, .cal, .casc, .fronts, .replies, .samp, .shots, .sys, .time] fun t => t.sys.cyc = 5 * v ∧
      t.sys.now = s.sys.now + (at_ - s.sys.cyc) ∧ t.sys.timeSet = none ∧ (isSlave s = true ∨ cascMaster s = true → t.casc.aligned = true) ∧
      (q.org ≠ .ring → Answered 0x23 q 0 [] s t))) ∧
  (∀ s ev (t0 : Nat), isSlave s = true → domUp s 9 = true →
    let known := ∃ p ∈ s.casc.events, p.1 = ev
    let follows := isAnchor ev = true ∧ canFollow s = true ∧ s.cfg.token = false ∧ devRuns s = true
    (known → Completes (.sched ev true t0) s [.casc, .time] fun t => t.casc = { s.casc with badSched := none, out := s.casc.out ++ [.sched ev] }) ∧
    (¬ known → isCross ev = true ∨ t0 ≤ 5 * evAct ev → ¬ follows → Completes (.sched ev true t0) s [.casc, .time] fun t =>
      t.casc.out = s.casc.out ++ [.sched ev] ∧ t.casc.events.getLast? = some (ev, t0, false) ∧ ∀ p ∈ t.casc.events, p ∈ s.casc.events ∨ p.1 = ev) ∧
    (¬ known → t0 ≤ 5 * evAct ev → follows → ∃ t, exec (.sched ev true t0) s = .next t ∧ t.fire.gap = true ∧ t.fire.tf = evAct ev ∧
      t.fire.opens = true ∧ t.fire.closes = false ∧ t.cfg.token = true ∧ (ev, t0, false) ∈ t.casc.events) ∧
    (¬ known → isCross ev = false → 5 * evAct ev < t0 → s.casc.ringUp = true → Completes (.sched ev true t0) s (.time :: protParts) fun t =>
      t.casc.ringUp = false ∧ t.casc.ringLoss = min 65535 (s.casc.ringLoss + 1) ∧ safeDeclared s t)) ∧
  (∀ s ev t0, s.sys.cascRole = true → domUp s 9 = true →
    let second := isSlave s = true ∧ s.casc.badSched = some ev
    (¬ second → Completes (.sched ev false t0) s [.casc] fun t =>
      t.casc = { s.casc with crcErr := satAdd 16 s.casc.crcErr 1, badSched := some ev }) ∧
    (second → s.casc.ringUp = true → Completes (.sched ev false t0) s protParts fun t => t.casc.ringUp = false ∧ t.casc.badSched = none ∧
      t.casc.crcErr = satAdd 16 s.casc.crcErr 1 ∧ t.casc.ringLoss = min 65535 (s.casc.ringLoss + 1) ∧ safeDeclared s t)) ∧
  (∀ s ev a (t0 : Nat), nextEvent isAnchor s = some (ev, a) →
    (t0 < 5 * evAct ev → exec (.anchor t0) s = .next s) ∧
    (5 * evAct ev ≤ t0 → canFollow s = true ∨ opState s = .run →
      Completes (.anchor t0) s [.casc, .devState, .fire, .free, .irq, .resume, .sys, .time] fun t =>
      opState t = .run ∧ t.sys.statePend = false ∧ t.fire = { s.fire with reanchor := t.fire.reanchor } ∧
      ∀ p ∈ t.casc.events, p.1 = ev → p.2.2 = true)) ∧
  (∀ s ev a, nextEvent isCross s = some (ev, a) →
    (¬ (running s = true ∧ schedPos (rd s) = true) → Completes .cross s [.casc] fun t => ∀ p ∈ t.casc.events, p.1 = ev → p.2.2 = true) ∧
    (running s = true → schedPos (rd s) = true → s.fire.ending = none →
      ((∀ e ∈ enabledEmitters s, a ≤ 5 * (evAct ev + emPhase (rd s) e - 200)) → Completes .cross s [.casc, .fire] fun t =>
        t.fire.sched = s.fire.sched ++ (enabledEmitters s).map (fun e => (e, evAct ev + emPhase (rd s) e)) ∧ t.casc.syncErr = s.casc.syncErr) ∧
      ∀ e, enabledEmitters s = [e] → 5 * (evAct ev + emPhase (rd s) e - 200) < a →
        Completes .cross s [.arch, .casc, .counts, .emits, .fire, .free, .irq, .items, .link, .sys] fun t =>
          (emit t e).posSkip = min 255 ((emit s e).posSkip + 1) ∧ t.casc.syncErr = min 255 (s.casc.syncErr + 1) ∧
          t.sys.irqPend.testBit 11 = true ∧ t.fire.shotCnt = (s.fire.shotCnt + 1) % 2 ^ 32)) ∧
  (∀ s g n tf a (t0 : Nat), nextEvent isFrameEnd s = some (.frameEnd g n tf, a) →
    (t0 < 5 * g ∨ s.cfg.token = true → exec (.frameEnd t0) s = .next s) ∧
    (5 * g ≤ t0 → s.cfg.token = false → running s = true → devRuns s = true → s.sys.statePend = false →
      Completes (.frameEnd t0) s [.arch, .axA, .axB, .cal, .casc, .cfg, .counts, .devState, .emits, .eng, .faults, .fire, .flash, .flashOp,
        .free, .fronts, .greys, .hk, .irq, .items, .link, .replies, .resume, .shots, .stk, .sys, .time, .upd, .zone] fun t =>
        t.fire.gap = true ∧ t.fire.gapAt = g ∧ t.fire.tf = tf ∧ t.fire.closes = true ∧ t.fire.opens = true ∧ t.cfg.token = true ∧
        t.fire.ending = none ∧ ∃ h, t.fire.hdr = some h ∧ h.frame = n))

/-- Selects start and end transactions; WRITE packets enter the buffer, read replies leave, errors count; telemetry words go out -/
def Obligations.ThePortFramesPacketsAndTelemetry : Prop :=
  let acts := fun (s : State) t a => s.port.tr = some t ∧ (t.action = none ∨ t.action = some a)
  let first := fun (x : Trans) => if x.action = none then [x.statusByte] else []
  (∀ s hi, inReset s = false → s.port.csLow = false → Completes (.cpSelectFall hi) s [.port] fun t =>
    if s.port.telOn = true then t.port = { s.port with csLow := true, ignore := true, telColl := min 255 (s.port.telColl + 1) }
    else ∃ r, t.port = { s.port with csLow := true, ignore := false, mode3 := hi, sdo := [], tr := some r } ∧ r.loaded = 16 ∧ r.rxq = 0 ∧
      r.statusByte = statusByte s ∧ r.action = none ∧ r.bytes = [] ∧ r.sent = 0 ∧ r.lasterr = false) ∧
  (∀ s x n, acts s x 0x00 → Completes (.status n) s [.port] fun t =>
    t.port = { s.port with cmdExtra := min 65535 (s.port.cmdExtra + n), sdo := s.port.sdo ++ first x, tr := some { x with action := some 0x00 } }) ∧
  (∀ s x a, s.port.tr = some x → x.action = none → a ∉ ([0x00, 0xA5, 0x5A] : List Byte) → Completes (.unknownAction a) s [.port] fun t =>
    t.port = { s.port with cmdBadact := min 255 (s.port.cmdBadact + 1), sdo := s.port.sdo ++ [x.statusByte], tr := some { x with action := some a, lasterr := true } }) ∧
  (∀ s x (l : List (Byte × Nat)), s.port.tr = some x → x.action = none → x.rxq = 0 → (∀ p ∈ l, 1 ≤ p.2) →
    let b := l.map Prod.fst
    let out := s.port.sdo ++ x.statusByte :: List.replicate l.length 0
    (transRefused x = true → Completes (.write l) s [.port] fun t =>
      t.port = { s.port with cmdRefused := min 255 (s.port.cmdRefused + 1), sdo := out, tr := some { x with action := some 0xA5 } }) ∧
    (transRefused x = false → x.bytes = [] → x.badHdr = false → x.tooLong = false → b.length = packetLen b → headerOk b = true → hdrLen b ≤ 1024 →
      Completes (.write l) s [.port] fun t => t.port = { s.port with sdo := out, tr := some { x with action := some 0xA5, bytes := b, rxq := 1 } })) ∧
  (∀ s x, s.port.csLow = true → s.port.tr = some x → portsQuiet s → x.action = some 0xA5 → transRefused x = false → x.badHdr = false →
    x.tooLong = false → x.damaged = false → 8 ≤ x.bytes.length → hdrLen x.bytes ≤ 1024 →
    (packetLen x.bytes = x.bytes.length → Completes (.cpSelectRise 0 0) s [.port] fun t =>
      t.port = { s.port with csLow := false, tr := none, lasterr := x.lasterr, buf := [⟨x.bytes, none, .cmdPort⟩] }) ∧
    (x.bytes.length < packetLen x.bytes → canServe s = true → Completes (.cpSelectRise 0 0) s [.port, .replies] fun t =>
      t.port = { s.port with csLow := false, tr := none, lasterr := true, cmdShort := min 255 (s.port.cmdShort + 1), replies := [⟨.cmdPort, x.bytes.getD 1 0, x.bytes.getD 2 0, 3, BitVec.ofNat 8 (devIdx s), []⟩] })) ∧
  (∀ s x r (l : List Nat), acts s x 0x5A → x.statusByte.getLsbD 6 = true → (s.port.replies.find? fun r => r.org == .cmdPort) = some r →
    x.sent ≤ (replyBytes r).length → x.sent ≤ x.loaded → (∀ n ∈ l, 1 ≤ n) →
    let n := x.sent + l.length
    Completes (.read l) s [.port] fun t => ∃ k, t.port = { s.port with
      cmdExtra := if (replyBytes r).length < n then min 65535 (s.port.cmdExtra + 8 * (n - (replyBytes r).length)) else s.port.cmdExtra
      sdo := s.port.sdo ++ first x ++ (List.range l.length).map fun i => (replyBytes r).getD (x.sent + i) 0
      tr := some { x with action := some 0x5A, sent := min (replyBytes r).length n, loaded := k } }) ∧
  (∀ s x r, s.port.csLow = true → s.port.tr = some x → x.action = some 0x5A → x.statusByte.getLsbD 6 = true →
    s.port.replies = [r] → r.org = .cmdPort → s.port.buf = [] → s.casc.fwd = [] → s.link.rxQ = [] →
    Completes (.cpSelectRise 0 0) s [.port, .replies] fun t => t.port = { s.port with
      csLow := false, tr := none, lasterr := x.lasterr, replies := if x.cleanRead = true ∧ (replyBytes r).length ≤ x.sent then [] else [r] }) ∧
  (∀ s x, s.port.tr = some x → Completes (.cmdStallTimeout 0 0) s [.casc, .link, .port, .replies, .sys] fun t => t.port.tr = none ∧
    t.port.ignore = true ∧ t.port.lasterr = true ∧ t.port.cmdTimeout = min 255 (s.port.cmdTimeout + 1) ∧ t.port.csLow = s.port.csLow) ∧
  (∀ s hi, inReset s = false → s.port.telOn = false →
    let start := { s.port with telOn := true, telPos := 0, telPrev := 0xBF000000, tlNew := false, mode3 := hi }
    (s.port.csLow = false → Completes (.telSelectFall hi) s [.port] fun t => t.port = start) ∧
    (s.port.csLow = true → Completes (.telSelectFall hi) s [.casc, .link, .port, .replies, .sys] fun t => t.port.telOn = true ∧
      t.port.telPos = 0 ∧ t.port.tr = none ∧ t.port.ignore = true ∧ t.port.telColl = min 255 (s.port.telColl + 1)) ∧
    (s.port.csLow = true → Completes (.selectCollision (some hi) 0 0) s [.casc, .link, .port, .replies, .sys] fun t => t.port.telOn = true ∧ t.port.mode3 = hi ∧
      t.port.telPos = 0 ∧ t.port.tr = none ∧ t.port.ignore = true ∧ t.port.telColl = min 255 (s.port.telColl + 1))) ∧
  (∀ s, s.port.telOn = true →
    (inReset s = false → s.port.csLow = false → Completes (.selectCollision none 0 0) s [.port] fun t =>
      t.port = { s.port with csLow := true, ignore := true, telColl := min 255 (s.port.telColl + 1) }) ∧
    (∀ waited,
      let ready := waited || !s.port.tlNew
      let p := if s.port.tlNew = true ∨ s.port.tlLenM1 < s.port.telPos then 0 else s.port.telPos
      let i := itemOf s (tlTag s p)
      Completes (.telemetryWord waited) s [.port] fun t => t.port =
        if ready = true ∧ (tlFresh s p = false ∨ i.1 ≠ tget 0 s.port.sentVer p) then
          { s.port with tlNew := false, telPos := (if s.port.tlLenM1 ≤ p then 0 else p + 1), telPrev := 2 ^ 24 * tlTag s p + i.2 % 2 ^ 24, sentVer := tset 0 s.port.sentVer p i.1 }
        else { s.port with tlNew := false, telPos := p, telPrev := s.port.telPrev ||| 2 ^ 31, telRepeat := min 65535 (s.port.telRepeat + 1), telNrdy := if ready = true then s.port.telNrdy else min 65535 (s.port.telNrdy + 32) }) ∧
    ∀ n b, n < 32 → Completes (.telSelectRise n b) s [.port] fun t => t.port = { s.port with telOn := false, tlNew := false, telShort := (if n = 0 then s.port.telShort else min 255 (s.port.telShort + 1)), telNrdy := if b = true ∧ s.port.tlNew = true then min 65535 (s.port.telNrdy + n) else s.port.telNrdy }) ∧
  (∀ s, s.sys.rdy = true → Completes .telemetryStateUpdate s [.items] fun t =>
    itemOf t 7 = ((itemOf s 7).1 + 1, stateItem s)) ∧
  (∀ s, s.sys.rdy = false → exec .telemetryStateUpdate s = .next s)

/-- UPD_BEGIN, DATA, END, ACTIVATE, CONFIRM, STATUS and RECOVER_SELECT are refused as their rules say or take effect -/
def Obligations.UpdateRequestsAreCheckedThenTaken : Prop :=
  (∀ q s, Served 0x60 q s → q.payload.length = 3 →
    let n := (qw q 0).toNat
    let all := (qw q 1).toNat
    let recov := s.sys.devState = .recovery
    if 0x800000 < all ∨ n < 416 ∨ 2208 < n ∨ (n - 160) % 64 ≠ 0 ∨ all < n then Turned (.updBegin q) 0x60 q 8 s
    else if ¬ recov ∧ (bootRec s).trial ≠ none then Turned (.updBegin q) 0x60 q 1 s
    else if (recov ∧ bit (qw q 2) 0 = true) ∨ (¬ recov ∧ bit (qw q 2) 0 ≠ s.sys.cascRole) then Turned (.updBegin q) 0x60 q 10 s
    else Answers (.updBegin q) 0x60 q 0 [] s [.flash, .flashBytes, .flashOp, .upd] fun t => t.upd = { s.upd with
      stage := t.upd.stage, count := 0, total := all, staging := [], programmed := 0, erased := 0, download := true, ending := false
      bad := !s.flash.used, slot := t.upd.slot } ∧ (recov → t.upd.stage = 7 ∧ t.upd.slot = s.upd.recovSlot) ∧
      (¬ recov → t.upd.stage = 1 ∧ t.upd.slot = inactive s)) ∧
  (∀ q s, Served 0x61 q s → 2 ≤ q.payload.length → q.payload.length ≤ 1024 →
    let off := (qw q 0).toNat
    let len := 4 * (q.payload.length - 1)
    if s.upd.download = false ∨ s.upd.ending = true then Turned (.updData q) 0x61 q 7 s
    else if off % 4 ≠ 0 ∨ s.upd.count < off ∨ s.upd.total < off + len then Turned (.updData q) 0x61 q 8 s
    else
      let new := min (65536 - s.upd.staging.length) (len - (s.upd.count - off))
      Answers (.updData q) 0x61 q 0 [wd (s.upd.count + new)] s [.flash, .flashOp, .upd] fun t => t.upd = { s.upd with
        count := s.upd.count + new
        staging := s.upd.staging ++ ((bytesOf (q.payload.drop 1)).drop (s.upd.count - off)).take new }) ∧
  (∀ q ok s, Served 0x62 q s → q.payload.length = 0 →
    if s.upd.download = false ∨ s.upd.ending = true ∨ s.upd.count ≠ s.upd.total then Turned (.updEnd q ok) 0x62 q 7 s
    else if ok = false then Answers (.updEnd q ok) 0x62 q 4 [] s [.flash, .flashBytes, .sys, .upd] fun t =>
      t.upd.reason = 2 ∧ t.upd.download = false ∧ t.sys = { s.sys with badCrc := min 65535 (s.sys.badCrc + 1) }
    else Answers (.updEnd q ok) 0x62 q 12 [] s [.flash, .flashOp, .upd] fun t => t.upd = { s.upd with ending := true }) ∧
  (∀ q s, Served 0x63 q s → q.payload.length = 0 →
    let begun := fun (t : State) => t.upd = { s.upd with act := 1, stage := 3, actMaster := isMaster s || s.upd.actMaster }
    if slotState (bootRec s) (inactive s) ≠ 2 ∨ commitPend s = true ∨ s.sys.statePend = true then Turned (.updActivate q) 0x63 q 7 s
    else if isSlave s = true ∨ (s.sys.cascRole = true ∧ q.dest.toNat % 16 = 15) then Turned (.updActivate q) 0x63 q 10 s
    else if isMaster s = false then Answers (.updActivate q) 0x63 q 12 [] s [.upd] begun
    else
      let order := fun (t : State) => begun t ∧ t.casc = { s.casc with
        updWait := devIdx s :: others s, updOk := true, out := s.casc.out ++ [.updOrder 1] }
      if others s = [] then Answers (.updActivate q) 0x63 q 12 [] s [.casc, .upd] order
      else Completes (.updActivate q) s [.casc, .free, .replies, .upd] fun t =>
        (Answered 0x63 q 13 [] s t ∧ t.upd = s.upd ∧ t.casc = s.casc) ∨ (Answered 0x63 q 12 [] s t ∧ order t)) ∧
  (∀ q s, Served 0x64 q s → q.payload.length = 0 →
    if isMaster s = false ∨ onTrial s = false then Turned (.updConfirm q) 0x64 q 7 s
    else if others s = [] then Answers (.updConfirm q) 0x64 q 0 [] s [.flash, .flashBytes, .irq, .upd] fun t =>
      t.upd.stage = 5 ∧ t.upd.timer = false ∧ s.upd.counter ≤ t.upd.counter ∧ t.sys.irqPend.testBit 10 = true
    else if s.casc.ringUp = false then Turned (.updConfirm q) 0x64 q 13 s
    else Completes (.updConfirm q) s [.casc, .upd] fun t => t.upd = { s.upd with confirmReq := some q } ∧
      t.casc = { s.casc with updWait := others s, updOk := true, out := s.casc.out ++ [.updOrder 3] }) ∧
  (∀ q s, Served 0x65 q s → q.payload.length = 0 → ∃ w, Answers (.updStatus q) 0x65 q 0 w s [] (fun _ => True) ∧ w.length = 7 ∧
    fld (w.getD 0 0) 31 29 = s.upd.stage % 8 ∧ fld (w.getD 0 0) 28 24 = s.upd.reason % 32 ∧ fld (w.getD 0 0) 18 16 = s.upd.running % 8 ∧
    fld (w.getD 1 0) 31 28 = (bootRec s).stA % 16 ∧ fld (w.getD 1 0) 27 24 = (bootRec s).stB % 16 ∧ w[2]? = some (wd s.upd.count)) ∧
  (∀ q s, Served 0x66 q s → q.payload.length = 1 → s.sys.devState = .recovery →
    let st := slotState (bootRec s) (fld (qw q 0) 0 0)
    if st = 2 ∨ st = 3 then Answers (.recoverSelect q) 0x66 q 0 [] s [.devState, .flash, .flashBytes, .irq, .sys, .upd] fun t =>
      t.sys.devState = .boot ∧ t.sys.rdy = false ∧ t.upd = { s.upd with act := 4, warm := true } ∧ t.sys.irqPend.testBit 2 = true
    else Turned (.recoverSelect q) 0x66 q 8 s)

/-- The download ends with its check; an activation checks, orders, restarts or fails with its reason; a trial falls back -/
def Obligations.UpdatesAreActivatedOrFallBack : Prop :=
  let upd := fun (s : State) act reason (t : State) => t.upd.act = act ∧ t.upd.reason = reason ∧ t.upd.running = s.upd.running
  let restart := [StatePart.axA, .axB, .cal, .casc, .flash, .flashBytes, .flashOp, .fronts, .link, .pwr, .sys, .upd]
  let restarted := fun (s t : State) => t.sys.rdy = false ∧ t.upd.act = 4 ∧ t.upd.warm = true ∧ t.pwr.on = s.pwr.on
  (∀ s o, s.flash.op = some o → o.user = 3 → o.erase ≠ 0 → o.data = [] →
    Completes .updEraseStep s [.cal, .flash, .flashBytes, .flashOp, .free, .log, .upd] fun t => t.upd.erased = s.upd.erased + o.erase ∧
      ∀ a, flashByte t.flash.bytes a = if o.off ≤ a ∧ a < o.off + o.erase then 0xFF else flashByte s.flash.bytes a) ∧
  (∀ s, s.upd.download = true → s.upd.ending = true → s.upd.staging = [] → 0x800000 ≤ s.upd.erased → s.flash.op = none →
    let r := if s.upd.bad = true then 8 else if manifestCheck s s.upd.slot true ≠ 0 then manifestCheck s s.upd.slot true
      else if supTooLong s s.upd.slot = true then 7 else 0
    Completes .updEndComplete s [.devState, .flash, .flashBytes, .irq, .sys, .upd] fun t => t.upd.download = false ∧
      t.upd.ending = false ∧ t.upd.reason = (if r = 0 then s.upd.reason else r) ∧ t.sys.irqPend.testBit 10 = true ∧
      if s.sys.devState = .recovery ∧ r = 0 then t.sys.devState = .boot ∧ t.sys.rdy = false ∧ t.upd.act = 4
      else t.sys.devState = s.sys.devState ∧ t.sys = { s.sys with irqPend := t.sys.irqPend }) ∧
  (∀ s a b, s.upd.act = 1 →
    let r := fullCheck s (inactive s) a b
    let c := Instr.activationCheckDone a b
    (s.upd.actMaster = false → isSlave s = true → Completes c s [.casc, .flash, .flashBytes, .upd] fun t =>
      t.casc = { s.casc with out := s.casc.out ++ [.ack (devIdx s) (.fullCheck (decide (r = 0)))] } ∧
      if r = 0 then upd s 2 s.upd.reason t else upd s 0 r t) ∧
    (s.upd.actMaster = false → isSlave s = false → Completes c s [.flash, .flashBytes, .irq, .upd] fun t =>
      if r = 0 then upd s 6 s.upd.reason t else upd s 0 r t ∧ t.sys.irqPend.testBit 10 = true) ∧
    (s.upd.actMaster = true → devIdx s ∈ s.casc.updWait →
      let left := s.casc.updWait.filter (· ≠ devIdx s)
      (left ≠ [] → Completes c s [.casc, .flash, .flashBytes] fun t => t.casc = { s.casc with updWait := left, updOk := s.casc.updOk && decide (r = 0) }) ∧
      (left = [] → r ≠ 0 ∨ s.casc.updOk = false → Completes c s [.casc, .flash, .flashBytes, .irq, .upd] fun t => upd s 0 10 t ∧
        t.sys.irqPend.testBit 10 = true) ∧
      (left = [] → r = 0 → s.casc.updOk = true → ∃ t, exec c s = .next t ∧ .updOrder 2 ∈ t.casc.out ∧
        (others s ≠ [] → t.upd.act = 2 ∧ t.casc.updWait = others s) ∧ (others s = [] → restarted s t ∧ t.upd.timer = true)))) ∧
  (∀ s, if s.upd.act = 6 then Completes .supervisorRestart s restart (restarted s) else exec .supervisorRestart s = .next s) ∧
  (∀ s, isSlave s = true → (s.upd.act = 1 ∨ s.upd.act = 2) → s.upd.actMaster = false → Completes .cascadeCheckTimeout s [.upd] fun t => upd s 0 s.upd.reason t) ∧
  (∀ s, s.upd.actMaster = true → s.upd.act = 1 → s.casc.updWait ≠ [] → Completes .cascadeCheckTimeout s [.casc, .irq, .upd] fun t =>
    upd s 0 10 t ∧ t.casc = { s.casc with updWait := [] } ∧ t.sys.irqPend.testBit 10 = true) ∧
  (∀ s, isSlave s = true → domUp s 9 = true →
    (s.upd.act = 3 → Completes .go s restart fun t => restarted s t ∧ t.casc.out = s.casc.out ++ [.go]) ∧
    (s.upd.act ≠ 3 → Completes .go s [.casc] fun t => t.casc = { s.casc with out := s.casc.out ++ [.go] })) ∧
  (∀ s, s.upd.act = 3 ∨ (s.upd.actMaster = true ∧ s.upd.act = 2) → Completes .goTimeout s [.casc, .flash, .flashBytes, .irq, .upd] fun t =>
    upd s 0 9 t ∧ t.sys.irqPend.testBit 10 = true ∧ t.casc = { s.casc with updWait := [] }) ∧
  (∀ s, onTrial s = true →
    let fell := fun reason (t : State) => restarted s t ∧ t.upd.reason = reason ∧ t.upd.stage = 6 ∧ t.upd.timer = false ∧
      t.casc.out = s.casc.out ++ [.fallbackOrder]
    (s.upd.timer = true → s.upd.act = 0 → Completes .confirmTimerExpiry s (.time :: restart) fun t => fell 9 t ∧ s.upd.confirmLeft ≤ t.sys.now) ∧
    (s.sys.cascRole = true → s.upd.act = 0 ∨ s.upd.act = 5 → Completes .fallback s restart (fell 10))) ∧
  (∀ s, onTrial s = false → isMaster s = true → Completes .fallback s [.casc] fun t => t.casc = { s.casc with out := s.casc.out ++ [.fallbackOrder] }) ∧
  (∀ s k m, domUp s 9 = true →
    (isSlave s = true → k ≠ devIdx s → Completes (.ack k m true) s [.casc] fun t => t.casc = { s.casc with out := s.casc.out ++ [.ack k m] }) ∧
    (isMaster s = true → k ∈ s.casc.updWait →
      let left := s.casc.updWait.filter (· ≠ k)
      (∀ ok, s.upd.act = 1 → s.upd.actMaster = true → left ≠ [] → Completes (.ack k (.fullCheck ok) true) s [.casc] fun t =>
        t.casc = { s.casc with updWait := left, updOk := s.casc.updOk && ok }) ∧
      (s.upd.act = 2 → s.upd.actMaster = true → Completes (.ack k .pendingRecord true) s restart fun t =>
        if left = [] then restarted s t ∧ t.casc.out = s.casc.out ++ [.go] ∧ t.upd.timer = true
        else t.casc = { s.casc with updWait := left } ∧ t.upd = s.upd ∧ t.sys = s.sys) ∧
      ∀ q, s.upd.confirmReq = some q → left = [] → s.casc.updOk = true → portsQuiet s → q.org ≠ .ring →
        Completes (.ack k (.confirm true) true) s [.casc, .flash, .flashBytes, .irq, .replies, .upd] fun t => Answered 0x64 q 0 [] s t ∧
          t.upd.stage = 5 ∧ t.upd.confirmReq = none ∧ t.casc.out = s.casc.out ++ [.updOrder 4]))
end

