-- ==== Sys2Proof/Laws/Frame.lean ====
section
/-!
SUPPORT. What each shared operation may change, said once: `F_only` names the parts of the state outside of which the
operation F leaves everything as it was.
-/

namespace Sys2Proof.Machine

theorem Only.refl (l : List StatePart) (s : State) : Only l s s := by
  refine ⟨fun p _ => ?_⟩
  cases p <;> first | rfl | exact ⟨rfl, rfl⟩ | exact ⟨rfl, rfl, rfl, rfl, rfl⟩

theorem StatePart.same_trans (p : StatePart) {s t u : State} (h : p.same s t) (k : p.same t u) : p.same s u := by
  cases p <;> first
    | exact k.trans h
    | exact ⟨k.1.trans h.1, k.2.trans h.2⟩
    | exact ⟨k.1.trans h.1, k.2.1.trans h.2.1, k.2.2.1.trans h.2.2.1, k.2.2.2.1.trans h.2.2.2.1, k.2.2.2.2.trans h.2.2.2.2⟩
    | (refine Eq.trans k ?_; simp only [StatePart.same] at h; rw [h])

theorem Only.andThen {l L : List StatePart} {s t u : State} (k : Only l t u) (h : Only L s t)
    (sub : ∀ p ∈ l, p ∈ L := by decide) : Only L s u :=
  ⟨fun p hp => p.same_trans (h.same p hp) (k.same p fun q => hp (sub p q))⟩

theorem Only.next {l L : List StatePart} {s t u : State} (k : Only l t u) (sub : ∀ p ∈ l, p ∈ L) (h : Only L s t) :
    Only L s u := k.andThen h sub

theorem Only.weaken {l L : List StatePart} {s t : State} (h : Only l s t) (sub : ∀ p ∈ l, p ∈ L := by decide) :
    Only L s t := ⟨fun p hp => h.same p fun q => hp (sub p q)⟩

theorem Only.mkThen {L : List StatePart} {s X : State} {a1 : Sys} {a2 : Cfg} {a3 : Fire} {a4 : Tab Front} {a5 : Zone}
    {a6 : Samp} {a7 : Eng} {a8 : Tab Grey} {a9 : Stk} {a10 : Cal} {a11 : Hk} {a12 a13 : Axis} {a14 : Port} {a15 : Flash}
    {a16 : Link} {a17 : Arch} {a18 : Casc} {a19 : Pwr} {a20 : Upd} {a21 : Flt}
    (k : ∀ p, p ∉ L → p.same X ⟨X.pending, a1, a2, a3, a4, a5, a6, a7, a8, a9, a10, a11, a12, a13, a14, a15, a16, a17, a18, a19, a20, a21⟩)
    (h : Only L s X) :
    Only L s ⟨X.pending, a1, a2, a3, a4, a5, a6, a7, a8, a9, a10, a11, a12, a13, a14, a15, a16, a17, a18, a19, a20, a21⟩ :=
  ⟨fun p hp => p.same_trans (h.same p hp) (k p hp)⟩

theorem Only.each {α : Type} {L : List StatePart} {l : List α} {f : α → State → State} {s X : State}
    (hf : ∀ a t, Only L t (f a t)) (h : Only L s X) : Only L s (each l f X) := by
  unfold Machine.each
  induction l generalizing X with
  | nil => exact h
  | cons x r ih => exact ih ⟨fun p hp => p.same_trans (h.same p hp) ((hf x X).same p hp)⟩

theorem Only.ite {L : List StatePart} {s a b : State} {c : Prop} [Decidable c] (ha : Only L s a) (hb : Only L s b) :
    Only L s (if c then a else b) := by
  split
  · exact ha
  · exact hb

theorem Only.iteFst {α : Type} {L : List StatePart} {s : State} {a b : State × α} {c : Prop} [Decidable c] (ha : Only L s a.1)
    (hb : Only L s b.1) : Only L s (if c then a else b).1 := by
  split
  · exact ha
  · exact hb

theorem Only.iteSnd {α : Type} {L : List StatePart} {s : State} {a b : α × State} {c : Prop} [Decidable c] (ha : Only L s a.2)
    (hb : Only L s b.2) : Only L s (if c then a else b).2 := by
  split
  · exact ha
  · exact hb

/-! ### Ops -/

theorem takeFree_only (n : Nat) (s : State) : Only [.free] s (takeFree n s).2 := .mkThen (fun p hp => by cases p <;> first | exact absurd (by decide) hp | rfl | exact ⟨rfl, rfl⟩ | exact ⟨rfl, rfl, rfl, rfl, rfl⟩) (.refl _ _)

theorem advTo_only (t : Nat) (s : State) : Only [.time] s (advTo t s) := by
  unfold advTo
  repeat' first
    | with_reducible exact Only.refl _ _
    | with_reducible apply Only.ite
    | ((with_reducible apply Only.mkThen)
       · intro p hp; cases p <;> first | exact absurd (by decide) hp | rfl | exact ⟨rfl, rfl⟩ | exact ⟨rfl, rfl, rfl, rfl, rfl⟩)

theorem advBy_only (n : Nat) (s : State) : Only [.time] s (advBy n s) := by
  unfold advBy
  repeat' first
    | with_reducible exact Only.refl _ _
    | with_reducible apply Only.ite
    | ((with_reducible apply Only.mkThen)
       · intro p hp; cases p <;> first | exact absurd (by decide) hp | rfl | exact ⟨rfl, rfl⟩ | exact ⟨rfl, rfl, rfl, rfl, rfl⟩)

theorem advNow_only (n : Nat) (s : State) : Only [.time] s (advNow n s) := by
  unfold advNow
  repeat' first
    | with_reducible exact Only.refl _ _
    | ((with_reducible apply Only.next (advBy_only _ _)); · decide)
    | with_reducible apply Only.ite
    | ((with_reducible apply Only.mkThen)
       · intro p hp; cases p <;> first | exact absurd (by decide) hp | rfl | exact ⟨rfl, rfl⟩ | exact ⟨rfl, rfl, rfl, rfl, rfl⟩)

theorem tick_only (s : State) : Only [.time] s (tick s) := by
  unfold tick
  repeat' first
    | with_reducible exact Only.refl _ _
    | ((with_reducible apply Only.next (advBy_only _ _)); · decide)
    | with_reducible apply Only.ite
    | ((with_reducible apply Only.mkThen)
       · intro p hp; cases p <;> first | exact absurd (by decide) hp | rfl | exact ⟨rfl, rfl⟩ | exact ⟨rfl, rfl, rfl, rfl, rfl⟩)

theorem irq_only (k : Nat) (s : State) : Only [.irq] s (irq k s) := by
  unfold irq
  repeat' first
    | with_reducible exact Only.refl _ _
    | with_reducible apply Only.ite
    | ((with_reducible apply Only.mkThen)
       · intro p hp; cases p <;> first | exact absurd (by decide) hp | rfl | exact ⟨rfl, rfl⟩ | exact ⟨rfl, rfl, rfl, rfl, rfl⟩)

theorem setDev_only (d : DevState) (s : State) : Only [.devState, .irq] s (setDev d s) := by
  unfold setDev
  repeat' first
    | with_reducible exact Only.refl _ _
    | ((with_reducible apply Only.next (irq_only _ _)); · decide)
    | with_reducible apply Only.ite
    | ((with_reducible apply Only.mkThen)
       · intro p hp; cases p <;> first | exact absurd (by decide) hp | rfl | exact ⟨rfl, rfl⟩ | exact ⟨rfl, rfl, rfl, rfl, rfl⟩)

theorem setOp_only (d : DevState) (s : State) : Only [.devState, .resume, .irq] s (setOp d s) := by
  unfold setOp
  repeat' first
    | with_reducible exact Only.refl _ _
    | ((with_reducible apply Only.next (setDev_only _ _)); · decide)
    | with_reducible apply Only.ite
    | split
    | ((with_reducible apply Only.mkThen)
       · intro p hp; cases p <;> first | exact absurd (by decide) hp | rfl | exact ⟨rfl, rfl⟩ | exact ⟨rfl, rfl, rfl, rfl, rfl⟩)
    | dsimp only

theorem modFront_only (c : Nat) (f : Front → Front) (s : State) : Only [.fronts] s (modFront c f s) := by
  unfold modFront
  repeat' first
    | with_reducible exact Only.refl _ _
    | with_reducible apply Only.ite
    | ((with_reducible apply Only.mkThen)
       · intro p hp; cases p <;> first | exact absurd (by decide) hp | rfl | exact ⟨rfl, rfl⟩ | exact ⟨rfl, rfl, rfl, rfl, rfl⟩)

theorem modEmit_only (e : Nat) (f : Emit → Emit) (s : State) : Only [.emits] s (modEmit e f s) := by
  unfold modEmit
  repeat' first
    | with_reducible exact Only.refl _ _
    | with_reducible apply Only.ite
    | ((with_reducible apply Only.mkThen)
       · intro p hp; cases p <;> first | exact absurd (by decide) hp | rfl | exact ⟨rfl, rfl⟩ | exact ⟨rfl, rfl, rfl, rfl, rfl⟩)

theorem modSampCh_only (c : Nat) (f : SampCh → SampCh) (s : State) : Only [.samp] s (modSampCh c f s) := by
  unfold modSampCh
  repeat' first
    | with_reducible exact Only.refl _ _
    | with_reducible apply Only.ite
    | ((with_reducible apply Only.mkThen)
       · intro p hp; cases p <;> first | exact absurd (by decide) hp | rfl | exact ⟨rfl, rfl⟩ | exact ⟨rfl, rfl, rfl, rfl, rfl⟩)

theorem modEngine_only (k : Nat) (f : Engine → Engine) (s : State) : Only [.eng] s (modEngine k f s) := by
  unfold modEngine
  repeat' first
    | with_reducible exact Only.refl _ _
    | with_reducible apply Only.ite
    | ((with_reducible apply Only.mkThen)
       · intro p hp; cases p <;> first | exact absurd (by decide) hp | rfl | exact ⟨rfl, rfl⟩ | exact ⟨rfl, rfl, rfl, rfl, rfl⟩)

theorem modEngCh_only (c : Nat) (f : EngCh → EngCh) (s : State) : Only [.eng] s (modEngCh c f s) := by
  unfold modEngCh
  repeat' first
    | with_reducible exact Only.refl _ _
    | with_reducible apply Only.ite
    | ((with_reducible apply Only.mkThen)
       · intro p hp; cases p <;> first | exact absurd (by decide) hp | rfl | exact ⟨rfl, rfl⟩ | exact ⟨rfl, rfl, rfl, rfl, rfl⟩)

theorem modGrey_only (c : Nat) (f : Grey → Grey) (s : State) : Only [.greys] s (modGrey c f s) := by
  unfold modGrey
  repeat' first
    | with_reducible exact Only.refl _ _
    | with_reducible apply Only.ite
    | ((with_reducible apply Only.mkThen)
       · intro p hp; cases p <;> first | exact absurd (by decide) hp | rfl | exact ⟨rfl, rfl⟩ | exact ⟨rfl, rfl, rfl, rfl, rfl⟩)

theorem modCalCh_only (c : Nat) (f : CalCh → CalCh) (s : State) : Only [.cal] s (modCalCh c f s) := by
  unfold modCalCh
  repeat' first
    | with_reducible exact Only.refl _ _
    | with_reducible apply Only.ite
    | ((with_reducible apply Only.mkThen)
       · intro p hp; cases p <;> first | exact absurd (by decide) hp | rfl | exact ⟨rfl, rfl⟩ | exact ⟨rfl, rfl, rfl, rfl, rfl⟩)

theorem modCalGrp_only (g : Nat) (f : CalGrp → CalGrp) (s : State) : Only [.cal] s (modCalGrp g f s) := by
  unfold modCalGrp
  repeat' first
    | with_reducible exact Only.refl _ _
    | with_reducible apply Only.ite
    | ((with_reducible apply Only.mkThen)
       · intro p hp; cases p <;> first | exact absurd (by decide) hp | rfl | exact ⟨rfl, rfl⟩ | exact ⟨rfl, rfl, rfl, rfl, rfl⟩)

theorem modAxis_only (x : Nat) (f : Axis → Axis) (s : State) : Only [.axA, .axB] s (modAxis x f s) := by
  unfold modAxis
  repeat' first
    | with_reducible exact Only.refl _ _
    | with_reducible apply Only.ite
    | ((with_reducible apply Only.mkThen)
       · intro p hp; cases p <;> first | exact absurd (by decide) hp | rfl | exact ⟨rfl, rfl⟩ | exact ⟨rfl, rfl, rfl, rfl, rfl⟩)

theorem modLane_only (k : Nat) (f : Lane → Lane) (s : State) : Only [.link] s (modLane k f s) := by
  unfold modLane
  repeat' first
    | with_reducible exact Only.refl _ _
    | with_reducible apply Only.ite
    | ((with_reducible apply Only.mkThen)
       · intro p hp; cases p <;> first | exact absurd (by decide) hp | rfl | exact ⟨rfl, rfl⟩ | exact ⟨rfl, rfl, rfl, rfl, rfl⟩)

theorem modShot_only (sid : Nat) (f : Shot → Shot) (s : State) : Only [.shots] s (modShot sid f s) := by
  unfold modShot
  repeat' first
    | with_reducible exact Only.refl _ _
    | with_reducible apply Only.ite
    | ((with_reducible apply Only.mkThen)
       · intro p hp; cases p <;> first | exact absurd (by decide) hp | rfl | exact ⟨rfl, rfl⟩ | exact ⟨rfl, rfl, rfl, rfl, rfl⟩)

theorem modShots_only (f : Shot → Shot) (s : State) : Only [.shots] s (modShots f s) := by
  unfold modShots
  repeat' first
    | with_reducible exact Only.refl _ _
    | with_reducible apply Only.ite
    | ((with_reducible apply Only.mkThen)
       · intro p hp; cases p <;> first | exact absurd (by decide) hp | rfl | exact ⟨rfl, rfl⟩ | exact ⟨rfl, rfl, rfl, rfl, rfl⟩)

theorem modHdr_only (f : HdrCnt → HdrCnt) (s : State) : Only [.counts] s (modHdr f s) := by
  unfold modHdr
  repeat' first
    | with_reducible exact Only.refl _ _
    | with_reducible apply Only.ite
    | ((with_reducible apply Only.mkThen)
       · intro p hp; cases p <;> first | exact absurd (by decide) hp | rfl | exact ⟨rfl, rfl⟩ | exact ⟨rfl, rfl, rfl, rfl, rfl⟩)

theorem putItem_only (tag : Nat) (v : Int) (s : State) : Only [.items] s (putItem tag v s) := by
  unfold putItem
  repeat' first
    | with_reducible exact Only.refl _ _
    | with_reducible apply Only.ite
    | ((with_reducible apply Only.mkThen)
       · intro p hp; cases p <;> first | exact absurd (by decide) hp | rfl | exact ⟨rfl, rfl⟩ | exact ⟨rfl, rfl, rfl, rfl, rfl⟩)

theorem replyTo_only (opc : Nat) (q : Req) (st : Nat) (pay : List Word) (s : State) : Only [.replies] s (replyTo opc q st pay s) := by
  unfold replyTo
  repeat' first
    | with_reducible exact Only.refl _ _
    | with_reducible apply Only.ite
    | ((with_reducible apply Only.mkThen)
       · intro p hp; cases p <;> first | exact absurd (by decide) hp | rfl | exact ⟨rfl, rfl⟩ | exact ⟨rfl, rfl, rfl, rfl, rfl⟩)

theorem logPut_only (src kind inst detail : Nat) (s : State) : Only [.irq, .flash, .log] s (logPut src kind inst detail s) := by
  unfold logPut
  dsimp only
  repeat' first
    | with_reducible exact Only.refl _ _
    | ((with_reducible apply Only.next (irq_only _ _)); · decide)
    | with_reducible apply Only.ite
    | split
    | ((with_reducible apply Only.mkThen)
       · intro p hp; cases p <;> first | exact absurd (by decide) hp | rfl | exact ⟨rfl, rfl⟩ | exact ⟨rfl, rfl, rfl, rfl, rfl⟩)
    | dsimp only

theorem logWrite_only (src kind inst detail : Nat) (s : State) : Only [.irq, .flash, .log] s (logWrite src kind inst detail s) := by
  unfold logWrite
  repeat' first
    | with_reducible exact Only.refl _ _
    | ((with_reducible apply Only.next (logPut_only _ _ _ _ _)); · decide)
    | with_reducible apply Only.ite
    | ((with_reducible apply Only.mkThen)
       · intro p hp; cases p <;> first | exact absurd (by decide) hp | rfl | exact ⟨rfl, rfl⟩ | exact ⟨rfl, rfl, rfl, rfl, rfl⟩)

theorem logNote_only (src kind inst : Nat) (s : State) : Only [.free, .irq, .flash, .log] s (logNote src kind inst s) := by
  unfold logNote
  dsimp only
  repeat' first
    | with_reducible exact Only.refl _ _
    | ((with_reducible apply Only.next (takeFree_only _ _)); · decide)
    | ((with_reducible apply Only.next (logWrite_only _ _ _ _ _)); · decide)
    | with_reducible apply Only.ite
    | ((with_reducible apply Only.mkThen)
       · intro p hp; cases p <;> first | exact absurd (by decide) hp | rfl | exact ⟨rfl, rfl⟩ | exact ⟨rfl, rfl, rfl, rfl, rfl⟩)

theorem raiseEvent_only (src inst detail : Nat) (s : State) : Only [.fltQueue] s (raiseEvent src inst detail s) := by
  unfold raiseEvent
  repeat' first
    | with_reducible exact Only.refl _ _
    | with_reducible apply Only.ite
    | ((with_reducible apply Only.mkThen)
       · intro p hp; cases p <;> first | exact absurd (by decide) hp | rfl | exact ⟨rfl, rfl⟩ | exact ⟨rfl, rfl, rfl, rfl, rfl⟩)

theorem raiseOpen_only (src inst : Nat) (s : State) : Only [.free, .fltQueue] s (raiseOpen src inst s) := by
  unfold raiseOpen
  dsimp only
  repeat' first
    | with_reducible exact Only.refl _ _
    | ((with_reducible apply Only.next (takeFree_only _ _)); · decide)
    | ((with_reducible apply Only.next (raiseEvent_only _ _ _ _)); · decide)
    | with_reducible apply Only.ite
    | ((with_reducible apply Only.mkThen)
       · intro p hp; cases p <;> first | exact absurd (by decide) hp | rfl | exact ⟨rfl, rfl⟩ | exact ⟨rfl, rfl, rfl, rfl, rfl⟩)

theorem modFlt_only (src inst : Nat) (f : FltInst → FltInst) (s : State) : Only [.faults] s (modFlt src inst f s) := by
  unfold modFlt
  repeat' first
    | with_reducible exact Only.refl _ _
    | with_reducible apply Only.ite
    | ((with_reducible apply Only.mkThen)
       · intro p hp; cases p <;> first | exact absurd (by decide) hp | rfl | exact ⟨rfl, rfl⟩ | exact ⟨rfl, rfl, rfl, rfl, rfl⟩)

/-! ### Flash -/

theorem flashScatter_only (n a : Nat) (s : State) : Only [.free, .flashBytes] s (flashScatter n a s) := by
  induction n generalizing a s with
  | zero => exact .refl _ _
  | succ n ih =>
    unfold flashScatter
    dsimp only
    refine .andThen (ih _ _) ?_
    ((with_reducible apply Only.mkThen); · intro p hp; cases p <;> first | exact absurd (by decide) hp | rfl | exact ⟨rfl, rfl⟩ | exact ⟨rfl, rfl, rfl, rfl, rfl⟩)
    exact .andThen (takeFree_only _ _) (.refl _ _)

theorem loadRanges_only (slot : Nat) (s : State) : Only [.flash] s (loadRanges slot s) := by
  unfold loadRanges
  dsimp only
  repeat' first
    | with_reducible exact Only.refl _ _
    | with_reducible apply Only.ite
    | ((with_reducible apply Only.mkThen)
       · intro p hp; cases p <;> first | exact absurd (by decide) hp | rfl | exact ⟨rfl, rfl⟩ | exact ⟨rfl, rfl, rfl, rfl, rfl⟩)

theorem startOp_only (o : FlashOp) (s : State) : Only [.flashOp] s (startOp o s) := by
  unfold startOp
  repeat' first
    | with_reducible exact Only.refl _ _
    | with_reducible apply Only.ite
    | ((with_reducible apply Only.mkThen)
       · intro p hp; cases p <;> first | exact absurd (by decide) hp | rfl | exact ⟨rfl, rfl⟩ | exact ⟨rfl, rfl, rfl, rfl, rfl⟩)

theorem startProg_only (a : Nat) (b : List Byte) (user : Nat) (s : State) : Only [.flashOp] s (startProg a b user s) := by
  unfold startProg
  repeat' first
    | with_reducible exact Only.refl _ _
    | ((with_reducible apply Only.next (startOp_only _ _)); · decide)
    | with_reducible apply Only.ite
    | ((with_reducible apply Only.mkThen)
       · intro p hp; cases p <;> first | exact absurd (by decide) hp | rfl | exact ⟨rfl, rfl⟩ | exact ⟨rfl, rfl, rfl, rfl, rfl⟩)

theorem startErase_only (a n user : Nat) (s : State) : Only [.flashOp] s (startErase a n user s) := by
  unfold startErase
  repeat' first
    | with_reducible exact Only.refl _ _
    | ((with_reducible apply Only.next (startOp_only _ _)); · decide)
    | with_reducible apply Only.ite
    | ((with_reducible apply Only.mkThen)
       · intro p hp; cases p <;> first | exact absurd (by decide) hp | rfl | exact ⟨rfl, rfl⟩ | exact ⟨rfl, rfl, rfl, rfl, rfl⟩)

theorem logErase_only (a n : Nat) (s : State) : Only [.log] s (logErase a n s) := by
  unfold logErase
  dsimp only
  repeat' first
    | with_reducible exact Only.refl _ _
    | with_reducible apply Only.ite
    | ((with_reducible apply Only.mkThen)
       · intro p hp; cases p <;> first | exact absurd (by decide) hp | rfl | exact ⟨rfl, rfl⟩ | exact ⟨rfl, rfl, rfl, rfl, rfl⟩)

theorem opBytes_only (o : FlashOp) (good : Bool) (s : State) : Only [.free, .flashBytes, .log] s (opBytes o good s) := by
  unfold opBytes
  dsimp only
  repeat' first
    | with_reducible exact Only.refl _ _
    | ((with_reducible apply Only.next (flashScatter_only _ _ _)); · decide)
    | ((with_reducible apply Only.next (logErase_only _ _ _)); · decide)
    | with_reducible apply Only.ite
    | ((with_reducible apply Only.mkThen)
       · intro p hp; cases p <;> first | exact absurd (by decide) hp | rfl | exact ⟨rfl, rfl⟩ | exact ⟨rfl, rfl, rfl, rfl, rfl⟩)

theorem storeBegin_only (s : State) : Only [.cal] s (storeBegin s) := by
  unfold storeBegin
  dsimp only
  repeat' first
    | with_reducible exact Only.refl _ _
    | with_reducible apply Only.ite
    | split
    | ((with_reducible apply Only.mkThen)
       · intro p hp; cases p <;> first | exact absurd (by decide) hp | rfl | exact ⟨rfl, rfl⟩ | exact ⟨rfl, rfl, rfl, rfl, rfl⟩)
    | dsimp only

theorem storeFail_only (s : State) : Only [.cal, .flash] s (storeFail s) := by
  unfold storeFail
  dsimp only
  repeat' first
    | with_reducible exact Only.refl _ _
    | with_reducible apply Only.ite
    | split
    | ((with_reducible apply Only.mkThen)
       · intro p hp; cases p <;> first | exact absurd (by decide) hp | rfl | exact ⟨rfl, rfl⟩ | exact ⟨rfl, rfl, rfl, rfl, rfl⟩)
    | dsimp only

theorem storeDone_only (s : State) : Only [.cal] s (storeDone s) := by
  unfold storeDone
  repeat' first
    | with_reducible exact Only.refl _ _
    | with_reducible apply Only.ite
    | split
    | ((with_reducible apply Only.mkThen)
       · intro p hp; cases p <;> first | exact absurd (by decide) hp | rfl | exact ⟨rfl, rfl⟩ | exact ⟨rfl, rfl, rfl, rfl, rfl⟩)
    | dsimp only

theorem storeRequest_only (s : State) : Only [.cal] s (storeRequest s) := by
  unfold storeRequest
  repeat' first
    | with_reducible exact Only.refl _ _
    | ((with_reducible apply Only.next (storeBegin_only _)); · decide)
    | with_reducible apply Only.ite
    | ((with_reducible apply Only.mkThen)
       · intro p hp; cases p <;> first | exact absurd (by decide) hp | rfl | exact ⟨rfl, rfl⟩ | exact ⟨rfl, rfl, rfl, rfl, rfl⟩)

theorem updNext_only (s : State) : Only [.flashOp] s (updNext s) := by
  unfold updNext
  dsimp only
  repeat' first
    | with_reducible exact Only.refl _ _
    | ((with_reducible apply Only.next (startProg_only _ _ _ _)); · decide)
    | ((with_reducible apply Only.next (startErase_only _ _ _ _)); · decide)
    | with_reducible apply Only.ite
    | ((with_reducible apply Only.mkThen)
       · intro p hp; cases p <;> first | exact absurd (by decide) hp | rfl | exact ⟨rfl, rfl⟩ | exact ⟨rfl, rfl, rfl, rfl, rfl⟩)

theorem flashNext_only (s : State) : Only [.flashOp, .flash] s (flashNext s) := by
  unfold flashNext
  repeat' first
    | with_reducible exact Only.refl _ _
    | ((with_reducible apply Only.next (startErase_only _ _ _ _)); · decide)
    | ((with_reducible apply Only.next (updNext_only _)); · decide)
    | with_reducible apply Only.ite
    | split
    | ((with_reducible apply Only.mkThen)
       · intro p hp; cases p <;> first | exact absurd (by decide) hp | rfl | exact ⟨rfl, rfl⟩ | exact ⟨rfl, rfl, rfl, rfl, rfl⟩)
    | dsimp only

theorem opReport_only (o : FlashOp) (good : Bool) (s : State) : Only [.cal, .flash, .upd] s (opReport o good s) := by
  unfold opReport
  repeat' first
    | with_reducible exact Only.refl _ _
    | ((with_reducible apply Only.next (storeDone_only _)); · decide)
    | ((with_reducible apply Only.next (storeFail_only _)); · decide)
    | with_reducible apply Only.ite
    | ((with_reducible apply Only.mkThen)
       · intro p hp; cases p <;> first | exact absurd (by decide) hp | rfl | exact ⟨rfl, rfl⟩ | exact ⟨rfl, rfl, rfl, rfl, rfl⟩)

theorem opCount_only (o : FlashOp) (completed ok : Bool) (s : State) : Only [.flash] s (opCount o completed ok s) := by
  unfold opCount
  dsimp only
  repeat' first
    | with_reducible exact Only.refl _ _
    | with_reducible apply Only.ite
    | ((with_reducible apply Only.mkThen)
       · intro p hp; cases p <;> first | exact absurd (by decide) hp | rfl | exact ⟨rfl, rfl⟩ | exact ⟨rfl, rfl, rfl, rfl, rfl⟩)

theorem opEnd_only (completed good : Bool) (s : State) : Only [.free, .cal, .flashBytes, .flashOp, .flash, .upd, .log] s (opEnd completed good s) := by
  unfold opEnd
  dsimp only
  repeat' first
    | with_reducible exact Only.refl _ _
    | ((with_reducible apply Only.next (opBytes_only _ _ _)); · decide)
    | ((with_reducible apply Only.next (flashNext_only _)); · decide)
    | ((with_reducible apply Only.next (opReport_only _ _ _)); · decide)
    | ((with_reducible apply Only.next (opCount_only _ _ _ _)); · decide)
    | with_reducible apply Only.ite
    | split
    | ((with_reducible apply Only.mkThen)
       · intro p hp; cases p <;> first | exact absurd (by decide) hp | rfl | exact ⟨rfl, rfl⟩ | exact ⟨rfl, rfl, rfl, rfl, rfl⟩)
    | dsimp only

/-! ### Hk -/

theorem modHkEnt_only (n : Nat) (f : HkEnt → HkEnt) (s : State) : Only [.hk] s (modHkEnt n f s) := by
  unfold modHkEnt
  repeat' first
    | with_reducible exact Only.refl _ _
    | with_reducible apply Only.ite
    | ((with_reducible apply Only.mkThen)
       · intro p hp; cases p <;> first | exact absurd (by decide) hp | rfl | exact ⟨rfl, rfl⟩ | exact ⟨rfl, rfl, rfl, rfl, rfl⟩)

theorem hkOut_only (v : Nat) (s : State) : Only [.hk, .items] s (hkOut v s) := by
  unfold hkOut
  dsimp only
  repeat' first
    | with_reducible exact Only.refl _ _
    | ((with_reducible apply Only.next (putItem_only _ _ _)); · decide)
    | with_reducible apply Only.ite
    | ((with_reducible apply Only.mkThen)
       · intro p hp; cases p <;> first | exact absurd (by decide) hp | rfl | exact ⟨rfl, rfl⟩ | exact ⟨rfl, rfl, rfl, rfl, rfl⟩)

theorem biasMove_only (o : Nat) (s : State) : Only [.hk] s (biasMove o s) := by
  unfold biasMove
  dsimp only
  repeat' first
    | with_reducible exact Only.refl _ _
    | with_reducible apply Only.ite
    | ((with_reducible apply Only.mkThen)
       · intro p hp; cases p <;> first | exact absurd (by decide) hp | rfl | exact ⟨rfl, rfl⟩ | exact ⟨rfl, rfl, rfl, rfl, rfl⟩)

theorem biasResult_only (n : Nat) (good : Option Int) (s : State) : Only [.hk] s (biasResult n good s) := by
  unfold biasResult
  repeat' first
    | with_reducible exact Only.refl _ _
    | ((with_reducible apply Only.next (biasMove_only _ _)); · decide)
    | with_reducible apply Only.each
    | intro _ _
    | with_reducible apply Only.ite
    | split
    | ((with_reducible apply Only.mkThen)
       · intro p hp; cases p <;> first | exact absurd (by decide) hp | rfl | exact ⟨rfl, rfl⟩ | exact ⟨rfl, rfl, rfl, rfl, rfl⟩)
    | dsimp only

theorem tempHoldNow_only (s : State) : Only [.sys] s (tempHoldNow s) := by
  unfold tempHoldNow
  repeat' first
    | with_reducible exact Only.refl _ _
    | with_reducible apply Only.ite
    | ((with_reducible apply Only.mkThen)
       · intro p hp; cases p <;> first | exact absurd (by decide) hp | rfl | exact ⟨rfl, rfl⟩ | exact ⟨rfl, rfl, rfl, rfl, rfl⟩)

theorem tempStale_only (s : State) : Only [.sys, .cal] s (tempStale s) := by
  unfold tempStale
  dsimp only
  repeat' first
    | with_reducible exact Only.refl _ _
    | ((with_reducible apply Only.next (modCalGrp_only _ _ _)); · decide)
    | with_reducible apply Only.ite
    | split
    | ((with_reducible apply Only.mkThen)
       · intro p hp; cases p <;> first | exact absurd (by decide) hp | rfl | exact ⟨rfl, rfl⟩ | exact ⟨rfl, rfl, rfl, rfl, rfl⟩)
    | dsimp only

theorem hkStale_only (opn short blanked : Bool) (s : State) : Only [.sys, .cal, .hk, .items] s (hkStale opn short blanked s) := by
  unfold hkStale
  dsimp only
  repeat' first
    | with_reducible exact Only.refl _ _
    | ((with_reducible apply Only.next (hkOut_only _ _)); · decide)
    | ((with_reducible apply Only.next (tempStale_only _)); · decide)
    | ((with_reducible apply Only.next (biasResult_only _ _ _)); · decide)
    | ((with_reducible apply Only.next (modHkEnt_only _ _ _)); · decide)
    | with_reducible apply Only.ite
    | ((with_reducible apply Only.mkThen)
       · intro p hp; cases p <;> first | exact absurd (by decide) hp | rfl | exact ⟨rfl, rfl⟩ | exact ⟨rfl, rfl, rfl, rfl, rfl⟩)

theorem sourcesOff_only (s : State) : Only [.hk] s (sourcesOff s) := by
  unfold sourcesOff
  repeat' first
    | with_reducible exact Only.refl _ _
    | with_reducible apply Only.ite
    | ((with_reducible apply Only.mkThen)
       · intro p hp; cases p <;> first | exact absurd (by decide) hp | rfl | exact ⟨rfl, rfl⟩ | exact ⟨rfl, rfl, rfl, rfl, rfl⟩)

theorem toPassWait_only (s : State) : Only [.hk] s (toPassWait s) := by
  unfold toPassWait
  dsimp only
  repeat' first
    | with_reducible exact Only.refl _ _
    | ((with_reducible apply Only.next (sourcesOff_only _)); · decide)
    | with_reducible apply Only.ite
    | ((with_reducible apply Only.mkThen)
       · intro p hp; cases p <;> first | exact absurd (by decide) hp | rfl | exact ⟨rfl, rfl⟩ | exact ⟨rfl, rfl, rfl, rfl, rfl⟩)

theorem hkStop_only (s : State) : Only [.hk] s (hkStop s) := by
  unfold hkStop
  repeat' first
    | with_reducible exact Only.refl _ _
    | ((with_reducible apply Only.next (sourcesOff_only _)); · decide)
    | with_reducible apply Only.ite
    | ((with_reducible apply Only.mkThen)
       · intro p hp; cases p <;> first | exact absurd (by decide) hp | rfl | exact ⟨rfl, rfl⟩ | exact ⟨rfl, rfl, rfl, rfl, rfl⟩)

theorem takeXtal_only (s : State) : Only [.hk] s (takeXtal s) := by
  unfold takeXtal
  repeat' first
    | with_reducible exact Only.refl _ _
    | with_reducible apply Only.ite
    | ((with_reducible apply Only.mkThen)
       · intro p hp; cases p <;> first | exact absurd (by decide) hp | rfl | exact ⟨rfl, rfl⟩ | exact ⟨rfl, rfl, rfl, rfl, rfl⟩)

theorem convOver_only (s : State) : Only [.hk] s (convOver s) := by
  unfold convOver
  dsimp only
  repeat' first
    | with_reducible exact Only.refl _ _
    | ((with_reducible apply Only.next (takeXtal_only _)); · decide)
    | with_reducible apply Only.ite
    | ((with_reducible apply Only.mkThen)
       · intro p hp; cases p <;> first | exact absurd (by decide) hp | rfl | exact ⟨rfl, rfl⟩ | exact ⟨rfl, rfl, rfl, rfl, rfl⟩)

theorem stopOrStart_only (s : State) : Only [.hk] s (stopOrStart s) := by
  unfold stopOrStart
  dsimp only
  repeat' first
    | with_reducible exact Only.refl _ _
    | ((with_reducible apply Only.next (hkStop_only _)); · decide)
    | with_reducible apply Only.ite
    | ((with_reducible apply Only.mkThen)
       · intro p hp; cases p <;> first | exact absurd (by decide) hp | rfl | exact ⟨rfl, rfl⟩ | exact ⟨rfl, rfl, rfl, rfl, rfl⟩)

theorem resumeSeq_only (s : State) : Only [.hk] s (resumeSeq s) := by
  unfold resumeSeq
  dsimp only
  repeat' first
    | with_reducible exact Only.refl _ _
    | ((with_reducible apply Only.next (hkStop_only _)); · decide)
    | ((with_reducible apply Only.next (toPassWait_only _)); · decide)
    | with_reducible apply Only.ite
    | split
    | ((with_reducible apply Only.mkThen)
       · intro p hp; cases p <;> first | exact absurd (by decide) hp | rfl | exact ⟨rfl, rfl⟩ | exact ⟨rfl, rfl, rfl, rfl, rfl⟩)
    | dsimp only

theorem afterInject_only (s : State) : Only [.hk] s (afterInject s) := by
  unfold afterInject
  dsimp only
  repeat' first
    | with_reducible exact Only.refl _ _
    | ((with_reducible apply Only.next (resumeSeq_only _)); · decide)
    | with_reducible apply Only.ite
    | split
    | ((with_reducible apply Only.mkThen)
       · intro p hp; cases p <;> first | exact absurd (by decide) hp | rfl | exact ⟨rfl, rfl⟩ | exact ⟨rfl, rfl, rfl, rfl, rfl⟩)
    | dsimp only

theorem nextEntry_only (s0 : State) : Only [.hk] s0 (nextEntry s0) := by
  unfold nextEntry
  dsimp only
  repeat' first
    | with_reducible exact Only.refl _ _
    | ((with_reducible apply Only.next (convOver_only _)); · decide)
    | ((with_reducible apply Only.next (afterInject_only _)); · decide)
    | ((with_reducible apply Only.next (stopOrStart_only _)); · decide)
    | ((with_reducible apply Only.next (toPassWait_only _)); · decide)
    | with_reducible apply Only.ite
    | ((with_reducible apply Only.mkThen)
       · intro p hp; cases p <;> first | exact absurd (by decide) hp | rfl | exact ⟨rfl, rfl⟩ | exact ⟨rfl, rfl, rfl, rfl, rfl⟩)

theorem startPass_only (s : State) : Only [.hk] s (startPass s) := by
  unfold startPass
  repeat' first
    | with_reducible exact Only.refl _ _
    | with_reducible apply Only.ite
    | ((with_reducible apply Only.mkThen)
       · intro p hp; cases p <;> first | exact absurd (by decide) hp | rfl | exact ⟨rfl, rfl⟩ | exact ⟨rfl, rfl, rfl, rfl, rfl⟩)

theorem beginConv_only (s : State) : Only [.hk] s (beginConv s) := by
  unfold beginConv
  dsimp only
  repeat' first
    | with_reducible exact Only.refl _ _
    | with_reducible apply Only.ite
    | ((with_reducible apply Only.mkThen)
       · intro p hp; cases p <;> first | exact absurd (by decide) hp | rfl | exact ⟨rfl, rfl⟩ | exact ⟨rfl, rfl, rfl, rfl, rfl⟩)

theorem pwmOrConv_only (s : State) : Only [.hk] s (pwmOrConv s) := by
  unfold pwmOrConv
  dsimp only
  repeat' first
    | with_reducible exact Only.refl _ _
    | ((with_reducible apply Only.next (beginConv_only _)); · decide)
    | with_reducible apply Only.ite
    | ((with_reducible apply Only.mkThen)
       · intro p hp; cases p <;> first | exact absurd (by decide) hp | rfl | exact ⟨rfl, rfl⟩ | exact ⟨rfl, rfl, rfl, rfl, rfl⟩)

theorem pwmGone_only (s : State) : Only [.hk] s (pwmGone s) := by
  unfold pwmGone
  repeat' first
    | with_reducible exact Only.refl _ _
    | ((with_reducible apply Only.next (pwmOrConv_only _)); · decide)
    | with_reducible apply Only.ite
    | ((with_reducible apply Only.mkThen)
       · intro p hp; cases p <;> first | exact absurd (by decide) hp | rfl | exact ⟨rfl, rfl⟩ | exact ⟨rfl, rfl, rfl, rfl, rfl⟩)

theorem refOrPwm_only (s : State) : Only [.hk] s (refOrPwm s) := by
  unfold refOrPwm
  repeat' first
    | with_reducible exact Only.refl _ _
    | ((with_reducible apply Only.next (pwmOrConv_only _)); · decide)
    | with_reducible apply Only.ite
    | ((with_reducible apply Only.mkThen)
       · intro p hp; cases p <;> first | exact absurd (by decide) hp | rfl | exact ⟨rfl, rfl⟩ | exact ⟨rfl, rfl, rfl, rfl, rfl⟩)

theorem staleTimes_only (n : Nat) (s : State) : Only [.sys, .cal, .hk, .items] s (staleTimes n s) := by
  induction n generalizing s with
  | zero => exact .refl _ _
  | succ n ih => exact .andThen (ih _) (.andThen (hkStale_only _ _ _ _) (.refl _ _))

theorem nextRepeat_only (gainNew : Bool) (s : State) : Only [.sys, .cal, .hk, .items] s (nextRepeat gainNew s) := by
  unfold nextRepeat
  dsimp only
  repeat' first
    | with_reducible exact Only.refl _ _
    | ((with_reducible apply Only.next (nextEntry_only _)); · decide)
    | ((with_reducible apply Only.next (takeXtal_only _)); · decide)
    | ((with_reducible apply Only.next (staleTimes_only _ _)); · decide)
    | ((with_reducible apply Only.next (pwmOrConv_only _)); · decide)
    | with_reducible apply Only.ite
    | ((with_reducible apply Only.mkThen)
       · intro p hp; cases p <;> first | exact absurd (by decide) hp | rfl | exact ⟨rfl, rfl⟩ | exact ⟨rfl, rfl, rfl, rfl, rfl⟩)

theorem hkInject_only (i : HkInj) (s : State) : Only [.hk] s (hkInject i s) := by
  unfold hkInject
  repeat' first
    | with_reducible exact Only.refl _ _
    | with_reducible apply Only.ite
    | ((with_reducible apply Only.mkThen)
       · intro p hp; cases p <;> first | exact absurd (by decide) hp | rfl | exact ⟨rfl, rfl⟩ | exact ⟨rfl, rfl, rfl, rfl, rfl⟩)

theorem interruptSeq_only (s : State) : Only [.hk] s (interruptSeq s) := by
  unfold interruptSeq
  dsimp only
  repeat' first
    | with_reducible exact Only.refl _ _
    | ((with_reducible apply Only.next (convOver_only _)); · decide)
    | with_reducible apply Only.ite
    | ((with_reducible apply Only.mkThen)
       · intro p hp; cases p <;> first | exact absurd (by decide) hp | rfl | exact ⟨rfl, rfl⟩ | exact ⟨rfl, rfl, rfl, rfl, rfl⟩)

theorem hkPowerUp_only (s : State) : Only [.hk] s (hkPowerUp s) := by
  unfold hkPowerUp
  dsimp only
  repeat' first
    | with_reducible exact Only.refl _ _
    | ((with_reducible apply Only.next (modHkEnt_only _ _ _)); · decide)
    | with_reducible apply Only.each
    | intro _ _
    | with_reducible apply Only.ite
    | ((with_reducible apply Only.mkThen)
       · intro p hp; cases p <;> first | exact absurd (by decide) hp | rfl | exact ⟨rfl, rfl⟩ | exact ⟨rfl, rfl, rfl, rfl, rfl⟩)

theorem hkPowerDown_only (s : State) : Only [.hk] s (hkPowerDown s) := by
  unfold hkPowerDown
  repeat' first
    | with_reducible exact Only.refl _ _
    | with_reducible apply Only.ite
    | ((with_reducible apply Only.mkThen)
       · intro p hp; cases p <;> first | exact absurd (by decide) hp | rfl | exact ⟨rfl, rfl⟩ | exact ⟨rfl, rfl, rfl, rfl, rfl⟩)

theorem hkSwapGains_only (r0 : Rd) (s : State) : Only [.hk] s (hkSwapGains r0 s) := by
  unfold hkSwapGains
  dsimp only
  repeat' first
    | with_reducible exact Only.refl _ _
    | ((with_reducible apply Only.next (modHkEnt_only _ _ _)); · decide)
    | with_reducible apply Only.each
    | intro _ _
    | with_reducible apply Only.ite
    | ((with_reducible apply Only.mkThen)
       · intro p hp; cases p <;> first | exact absurd (by decide) hp | rfl | exact ⟨rfl, rfl⟩ | exact ⟨rfl, rfl, rfl, rfl, rfl⟩)

theorem hkSwapPins_only (r0 : Rd) (s : State) : Only [.hk] s (hkSwapPins r0 s) := by
  unfold hkSwapPins
  dsimp only
  repeat' first
    | with_reducible exact Only.refl _ _
    | with_reducible apply Only.ite
    | ((with_reducible apply Only.mkThen)
       · intro p hp; cases p <;> first | exact absurd (by decide) hp | rfl | exact ⟨rfl, rfl⟩ | exact ⟨rfl, rfl, rfl, rfl, rfl⟩)

theorem hkSwapRun_only (was now : Bool) (s : State) : Only [.hk] s (hkSwapRun was now s) := by
  unfold hkSwapRun
  repeat' first
    | with_reducible exact Only.refl _ _
    | ((with_reducible apply Only.next (convOver_only _)); · decide)
    | ((with_reducible apply Only.next (hkStop_only _)); · decide)
    | with_reducible apply Only.ite
    | ((with_reducible apply Only.mkThen)
       · intro p hp; cases p <;> first | exact absurd (by decide) hp | rfl | exact ⟨rfl, rfl⟩ | exact ⟨rfl, rfl, rfl, rfl, rfl⟩)

theorem hkSwapBias_only (s : State) : Only [.hk] s (hkSwapBias s) := by
  unfold hkSwapBias
  dsimp only
  repeat' first
    | with_reducible exact Only.refl _ _
    | ((with_reducible apply Only.next (biasMove_only _ _)); · decide)
    | with_reducible apply Only.each
    | intro _ _
    | with_reducible apply Only.ite
    | ((with_reducible apply Only.mkThen)
       · intro p hp; cases p <;> first | exact absurd (by decide) hp | rfl | exact ⟨rfl, rfl⟩ | exact ⟨rfl, rfl, rfl, rfl, rfl⟩)

theorem hkSwap_only (r0 : Rd) (s : State) : Only [.hk] s (hkSwap r0 s) := by
  unfold hkSwap
  repeat' first
    | with_reducible exact Only.refl _ _
    | ((with_reducible apply Only.next (hkSwapBias_only _)); · decide)
    | ((with_reducible apply Only.next (hkSwapRun_only _ _ _)); · decide)
    | ((with_reducible apply Only.next (hkSwapPins_only _ _)); · decide)
    | ((with_reducible apply Only.next (hkSwapGains_only _ _)); · decide)
    | with_reducible apply Only.ite
    | ((with_reducible apply Only.mkThen)
       · intro p hp; cases p <;> first | exact absurd (by decide) hp | rfl | exact ⟨rfl, rfl⟩ | exact ⟨rfl, rfl, rfl, rfl, rfl⟩)

/-! ### Safe -/

theorem ringSend_only (m : RingMsg) (s : State) : Only [.casc] s (ringSend m s) := by
  unfold ringSend
  repeat' first
    | with_reducible exact Only.refl _ _
    | with_reducible apply Only.ite
    | ((with_reducible apply Only.mkThen)
       · intro p hp; cases p <;> first | exact absurd (by decide) hp | rfl | exact ⟨rfl, rfl⟩ | exact ⟨rfl, rfl, rfl, rfl, rfl⟩)

theorem modeDropped_only (x : Nat) (s : State) : Only [.free, .replies] s (modeDropped x s) := by
  unfold modeDropped
  dsimp only
  repeat' first
    | with_reducible exact Only.refl _ _
    | ((with_reducible apply Only.next (takeFree_only _ _)); · decide)
    | ((with_reducible apply Only.next (replyTo_only _ _ _ _ _)); · decide)
    | with_reducible apply Only.ite
    | split
    | ((with_reducible apply Only.mkThen)
       · intro p hp; cases p <;> first | exact absurd (by decide) hp | rfl | exact ⟨rfl, rfl⟩ | exact ⟨rfl, rfl, rfl, rfl, rfl⟩)
    | dsimp only

theorem axisSafe_only (x : Nat) (s : State) : Only [.free, .axA, .axB, .replies] s (axisSafe x s) := by
  unfold axisSafe
  repeat' first
    | with_reducible exact Only.refl _ _
    | ((with_reducible apply Only.next (modAxis_only _ _ _)); · decide)
    | ((with_reducible apply Only.next (modeDropped_only _ _)); · decide)
    | with_reducible apply Only.ite
    | ((with_reducible apply Only.mkThen)
       · intro p hp; cases p <;> first | exact absurd (by decide) hp | rfl | exact ⟨rfl, rfl⟩ | exact ⟨rfl, rfl, rfl, rfl, rfl⟩)

theorem axesSafe_only (s : State) : Only [.free, .hk, .axA, .axB, .replies] s (axesSafe s) := by
  unfold axesSafe
  repeat' first
    | with_reducible exact Only.refl _ _
    | ((with_reducible apply Only.next (pwmGone_only _)); · decide)
    | ((with_reducible apply Only.next (axisSafe_only _ _)); · decide)
    | with_reducible apply Only.ite
    | ((with_reducible apply Only.mkThen)
       · intro p hp; cases p <;> first | exact absurd (by decide) hp | rfl | exact ⟨rfl, rfl⟩ | exact ⟨rfl, rfl, rfl, rfl, rfl⟩)

theorem discardStacks_only (p : Stack → Bool) (s : State) : Only [.shots, .stk] s (discardStacks p s) := by
  unfold discardStacks
  dsimp only
  repeat' first
    | with_reducible exact Only.refl _ _
    | ((with_reducible apply Only.next (modShot_only _ _ _)); · decide)
    | with_reducible apply Only.each
    | intro _ _
    | with_reducible apply Only.ite
    | split
    | ((with_reducible apply Only.mkThen)
       · intro p hp; cases p <;> first | exact absurd (by decide) hp | rfl | exact ⟨rfl, rfl⟩ | exact ⟨rfl, rfl, rfl, rfl, rfl⟩)
    | dsimp only

theorem dropFrames_only (s0 : State) : Only [.sys, .shots, .fire, .stk] s0 (dropFrames s0) := by
  unfold dropFrames
  dsimp only
  repeat' first
    | with_reducible exact Only.refl _ _
    | ((with_reducible apply Only.next (discardStacks_only _ _)); · decide)
    | with_reducible apply Only.ite
    | ((with_reducible apply Only.mkThen)
       · intro p hp; cases p <;> first | exact absurd (by decide) hp | rfl | exact ⟨rfl, rfl⟩ | exact ⟨rfl, rfl, rfl, rfl, rfl⟩)

theorem dropShot_only (x : Shot) (s : State) : Only [.shots, .samp, .stk, .hk] s (dropShot x s) := by
  unfold dropShot
  repeat' first
    | with_reducible exact Only.refl _ _
    | with_reducible apply Only.ite
    | ((with_reducible apply Only.mkThen)
       · intro p hp; cases p <;> first | exact absurd (by decide) hp | rfl | exact ⟨rfl, rfl⟩ | exact ⟨rfl, rfl, rfl, rfl, rfl⟩)

theorem amberAgain_only (x : Shot) (s : State) : Only [.fronts] s (amberAgain x s) := by
  unfold amberAgain
  repeat' first
    | with_reducible exact Only.refl _ _
    | ((with_reducible apply Only.next (modFront_only _ _ _)); · decide)
    | with_reducible apply Only.each
    | intro _ _
    | with_reducible apply Only.ite
    | ((with_reducible apply Only.mkThen)
       · intro p hp; cases p <;> first | exact absurd (by decide) hp | rfl | exact ⟨rfl, rfl⟩ | exact ⟨rfl, rfl, rfl, rfl, rfl⟩)

theorem cancelEdges_only (breach : Bool) (s : State) : Only [.free, .shots, .emits, .counts, .fire, .fronts, .samp, .stk, .hk, .fltQueue] s (cancelEdges breach s) := by
  unfold cancelEdges
  dsimp only
  repeat' first
    | with_reducible exact Only.refl _ _
    | ((with_reducible apply Only.next (amberAgain_only _ _)); · decide)
    | ((with_reducible apply Only.next (modShot_only _ _ _)); · decide)
    | ((with_reducible apply Only.next (modEmit_only _ _ _)); · decide)
    | ((with_reducible apply Only.next (dropShot_only _ _)); · decide)
    | ((with_reducible apply Only.next (raiseOpen_only _ _ _)); · decide)
    | ((with_reducible apply Only.next (modHdr_only _ _)); · decide)
    | with_reducible apply Only.each
    | intro _ _
    | with_reducible apply Only.ite
    | ((with_reducible apply Only.mkThen)
       · intro p hp; cases p <;> first | exact absurd (by decide) hp | rfl | exact ⟨rfl, rfl⟩ | exact ⟨rfl, rfl, rfl, rfl, rfl⟩)

theorem latchInhibit_only (s : State) : Only [.free, .inhibit, .shots, .emits, .counts, .fire, .fronts, .samp, .stk, .hk, .fltQueue] s (latchInhibit s) := by
  unfold latchInhibit
  repeat' first
    | with_reducible exact Only.refl _ _
    | ((with_reducible apply Only.next (cancelEdges_only _ _)); · decide)
    | with_reducible apply Only.ite
    | ((with_reducible apply Only.mkThen)
       · intro p hp; cases p <;> first | exact absurd (by decide) hp | rfl | exact ⟨rfl, rfl⟩ | exact ⟨rfl, rfl, rfl, rfl, rfl⟩)

theorem enterSafe_only (src inst detail : Nat) (share : Bool) (s : State) : Only [.free, .devState, .resume, .irq, .sys, .inhibit, .shots, .emits, .counts, .fire, .fronts, .samp, .stk, .hk, .axA, .axB, .replies, .flash, .casc, .log, .fltQueue] s (enterSafe src inst detail share s) := by
  unfold enterSafe
  dsimp only
  repeat' first
    | with_reducible exact Only.refl _ _
    | ((with_reducible apply Only.next (latchInhibit_only _)); · decide)
    | ((with_reducible apply Only.next (axesSafe_only _)); · decide)
    | ((with_reducible apply Only.next (dropFrames_only _)); · decide)
    | ((with_reducible apply Only.next (setOp_only _ _)); · decide)
    | ((with_reducible apply Only.next (logWrite_only _ _ _ _ _)); · decide)
    | ((with_reducible apply Only.next (ringSend_only _ _)); · decide)
    | with_reducible apply Only.ite
    | ((with_reducible apply Only.mkThen)
       · intro p hp; cases p <;> first | exact absurd (by decide) hp | rfl | exact ⟨rfl, rfl⟩ | exact ⟨rfl, rfl, rfl, rfl, rfl⟩)

theorem protective_only (src inst detail : Nat) (s : State) : Only [.free, .devState, .resume, .irq, .sys, .inhibit, .shots, .emits, .counts, .fire, .fronts, .samp, .stk, .hk, .axA, .axB, .replies, .flash, .casc, .log, .fltQueue] s (protective src inst detail s) := by
  unfold protective
  repeat' first
    | with_reducible exact Only.refl _ _
    | ((with_reducible apply Only.next (enterSafe_only _ _ _ _ _)); · decide)
    | ((with_reducible apply Only.next (raiseEvent_only _ _ _ _)); · decide)
    | with_reducible apply Only.ite
    | ((with_reducible apply Only.mkThen)
       · intro p hp; cases p <;> first | exact absurd (by decide) hp | rfl | exact ⟨rfl, rfl⟩ | exact ⟨rfl, rfl, rfl, rfl, rfl⟩)

theorem declareAxis_only (x cause : Nat) (s : State) : Only [.free, .devState, .resume, .irq, .sys, .inhibit, .shots, .emits, .counts, .fire, .fronts, .samp, .stk, .hk, .axA, .axB, .replies, .flash, .casc, .log, .fltQueue] s (declareAxis x cause s) := by
  unfold declareAxis
  repeat' first
    | with_reducible exact Only.refl _ _
    | ((with_reducible apply Only.next (protective_only _ _ _ _)); · decide)
    | ((with_reducible apply Only.next (pwmGone_only _)); · decide)
    | ((with_reducible apply Only.next (modAxis_only _ _ _)); · decide)
    | ((with_reducible apply Only.next (modeDropped_only _ _)); · decide)
    | with_reducible apply Only.ite
    | ((with_reducible apply Only.mkThen)
       · intro p hp; cases p <;> first | exact absurd (by decide) hp | rfl | exact ⟨rfl, rfl⟩ | exact ⟨rfl, rfl, rfl, rfl, rfl⟩)

theorem encoderError_only (x : Nat) (counted : Bool) (s : State) : Only [.free, .devState, .resume, .irq, .sys, .inhibit, .shots, .emits, .counts, .fire, .fronts, .samp, .stk, .hk, .axA, .axB, .replies, .flash, .casc, .log, .fltQueue] s (encoderError x counted s) := by
  unfold encoderError
  repeat' first
    | with_reducible exact Only.refl _ _
    | ((with_reducible apply Only.next (modAxis_only _ _ _)); · decide)
    | ((with_reducible apply Only.next (declareAxis_only _ _ _)); · decide)
    | with_reducible apply Only.ite
    | ((with_reducible apply Only.mkThen)
       · intro p hp; cases p <;> first | exact absurd (by decide) hp | rfl | exact ⟨rfl, rfl⟩ | exact ⟨rfl, rfl, rfl, rfl, rfl⟩)

theorem encSample_only (x : Nat) (v : Bool × Bool) (s : State) : Only [.free, .devState, .resume, .irq, .sys, .inhibit, .shots, .emits, .counts, .fire, .fronts, .samp, .stk, .hk, .axA, .axB, .replies, .flash, .casc, .log, .fltQueue] s (encSample x v s) := by
  unfold encSample
  dsimp only
  repeat' first
    | with_reducible exact Only.refl _ _
    | ((with_reducible apply Only.next (encoderError_only _ _ _)); · decide)
    | ((with_reducible apply Only.next (modAxis_only _ _ _)); · decide)
    | with_reducible apply Only.ite
    | ((with_reducible apply Only.mkThen)
       · intro p hp; cases p <;> first | exact absurd (by decide) hp | rfl | exact ⟨rfl, rfl⟩ | exact ⟨rfl, rfl, rfl, rfl, rfl⟩)

theorem encIndex_only (x : Nat) (s : State) : Only [.free, .devState, .resume, .irq, .sys, .inhibit, .shots, .emits, .counts, .fire, .fronts, .samp, .stk, .hk, .axA, .axB, .replies, .flash, .casc, .log, .fltQueue] s (encIndex x s) := by
  unfold encIndex
  dsimp only
  repeat' first
    | with_reducible exact Only.refl _ _
    | ((with_reducible apply Only.next (modAxis_only _ _ _)); · decide)
    | ((with_reducible apply Only.next (encoderError_only _ _ _)); · decide)
    | with_reducible apply Only.ite
    | ((with_reducible apply Only.mkThen)
       · intro p hp; cases p <;> first | exact absurd (by decide) hp | rfl | exact ⟨rfl, rfl⟩ | exact ⟨rfl, rfl, rfl, rfl, rfl⟩)

theorem idxSample_only (x : Nat) (v : Bool) (s : State) : Only [.free, .devState, .resume, .irq, .sys, .inhibit, .shots, .emits, .counts, .fire, .fronts, .samp, .stk, .hk, .axA, .axB, .replies, .flash, .casc, .log, .fltQueue] s (idxSample x v s) := by
  unfold idxSample
  dsimp only
  repeat' first
    | with_reducible exact Only.refl _ _
    | ((with_reducible apply Only.next (modAxis_only _ _ _)); · decide)
    | ((with_reducible apply Only.next (encIndex_only _ _)); · decide)
    | with_reducible apply Only.ite
    | ((with_reducible apply Only.mkThen)
       · intro p hp; cases p <;> first | exact absurd (by decide) hp | rfl | exact ⟨rfl, rfl⟩ | exact ⟨rfl, rfl, rfl, rfl, rfl⟩)

/-! ### Calib -/

theorem fillReads_only (s : State) : Only [.hk] s (fillReads s) := by
  unfold fillReads
  repeat' first
    | with_reducible exact Only.refl _ _
    | ((with_reducible apply Only.next (hkInject_only _ _)); · decide)
    | with_reducible apply Only.each
    | intro _ _
    | with_reducible apply Only.ite
    | ((with_reducible apply Only.mkThen)
       · intro p hp; cases p <;> first | exact absurd (by decide) hp | rfl | exact ⟨rfl, rfl⟩ | exact ⟨rfl, rfl, rfl, rfl, rfl⟩)

theorem startRun_only (g m : Nat) (cmd : Bool) (s : State) : Only [.cal, .hk] s (startRun g m cmd s) := by
  unfold startRun
  repeat' first
    | with_reducible exact Only.refl _ _
    | ((with_reducible apply Only.next (fillReads_only _)); · decide)
    | ((with_reducible apply Only.next (modCalGrp_only _ _ _)); · decide)
    | with_reducible apply Only.ite
    | ((with_reducible apply Only.mkThen)
       · intro p hp; cases p <;> first | exact absurd (by decide) hp | rfl | exact ⟨rfl, rfl⟩ | exact ⟨rfl, rfl, rfl, rfl, rfl⟩)

theorem autoRun_only (g m : Nat) (s : State) : Only [.cal, .hk] s (autoRun g m s) := by
  unfold autoRun
  repeat' first
    | with_reducible exact Only.refl _ _
    | ((with_reducible apply Only.next (startRun_only _ _ _ _)); · decide)
    | with_reducible apply Only.ite
    | ((with_reducible apply Only.mkThen)
       · intro p hp; cases p <;> first | exact absurd (by decide) hp | rfl | exact ⟨rfl, rfl⟩ | exact ⟨rfl, rfl, rfl, rfl, rfl⟩)

theorem tempTest_only (g : Nat) (s : State) : Only [.cal, .hk] s (tempTest g s) := by
  unfold tempTest
  repeat' first
    | with_reducible exact Only.refl _ _
    | ((with_reducible apply Only.next (autoRun_only _ _ _)); · decide)
    | with_reducible apply Only.ite
    | split
    | ((with_reducible apply Only.mkThen)
       · intro p hp; cases p <;> first | exact absurd (by decide) hp | rfl | exact ⟨rfl, rfl⟩ | exact ⟨rfl, rfl, rfl, rfl, rfl⟩)
    | dsimp only

theorem enterPhase_only (g p : Nat) (s : State) : Only [.cal, .hk] s (enterPhase g p s) := by
  unfold enterPhase
  repeat' first
    | with_reducible exact Only.refl _ _
    | ((with_reducible apply Only.next (fillReads_only _)); · decide)
    | ((with_reducible apply Only.next (modCalGrp_only _ _ _)); · decide)
    | ((with_reducible apply Only.next (modCalCh_only _ _ _)); · decide)
    | with_reducible apply Only.each
    | intro _ _
    | with_reducible apply Only.ite
    | ((with_reducible apply Only.mkThen)
       · intro p hp; cases p <;> first | exact absurd (by decide) hp | rfl | exact ⟨rfl, rfl⟩ | exact ⟨rfl, rfl, rfl, rfl, rfl⟩)

theorem takeHold_only (g : Nat) (s : State) : Only [.cal, .hk] s (takeHold g s) := by
  unfold takeHold
  dsimp only
  repeat' first
    | with_reducible exact Only.refl _ _
    | ((with_reducible apply Only.next (modCalGrp_only _ _ _)); · decide)
    | ((with_reducible apply Only.next (modCalCh_only _ _ _)); · decide)
    | ((with_reducible apply Only.next (enterPhase_only _ _ _)); · decide)
    | with_reducible apply Only.each
    | intro _ _
    | with_reducible apply Only.ite
    | ((with_reducible apply Only.mkThen)
       · intro p hp; cases p <;> first | exact absurd (by decide) hp | rfl | exact ⟨rfl, rfl⟩ | exact ⟨rfl, rfl, rfl, rfl, rfl⟩)

theorem retireSeg_only (c k : Nat) (s : State) : Only [.free, .irq, .samp, .cal, .flash, .log] s (retireSeg c k s) := by
  unfold retireSeg
  dsimp only
  repeat' first
    | with_reducible exact Only.refl _ _
    | ((with_reducible apply Only.next (logNote_only _ _ _ _)); · decide)
    | ((with_reducible apply Only.next (modCalCh_only _ _ _)); · decide)
    | ((with_reducible apply Only.next (modSampCh_only _ _ _)); · decide)
    | with_reducible apply Only.ite
    | ((with_reducible apply Only.mkThen)
       · intro p hp; cases p <;> first | exact absurd (by decide) hp | rfl | exact ⟨rfl, rfl⟩ | exact ⟨rfl, rfl, rfl, rfl, rfl⟩)

theorem endChan_only (g c : Nat) (s : State) : Only [.free, .irq, .samp, .cal, .flash, .log] s (endChan g c s) := by
  unfold endChan
  dsimp only
  repeat' first
    | with_reducible exact Only.refl _ _
    | ((with_reducible apply Only.next (modCalCh_only _ _ _)); · decide)
    | ((with_reducible apply Only.next (retireSeg_only _ _ _)); · decide)
    | with_reducible apply Only.each
    | intro _ _
    | with_reducible apply Only.ite
    | ((with_reducible apply Only.mkThen)
       · intro p hp; cases p <;> first | exact absurd (by decide) hp | rfl | exact ⟨rfl, rfl⟩ | exact ⟨rfl, rfl, rfl, rfl, rfl⟩)

theorem endPhase_only (g : Nat) (s : State) : Only [.free, .irq, .samp, .cal, .hk, .flash, .log] s (endPhase g s) := by
  unfold endPhase
  dsimp only
  repeat' first
    | with_reducible exact Only.refl _ _
    | ((with_reducible apply Only.next (enterPhase_only _ _ _)); · decide)
    | ((with_reducible apply Only.next (endChan_only _ _ _)); · decide)
    | with_reducible apply Only.each
    | intro _ _
    | with_reducible apply Only.ite
    | ((with_reducible apply Only.mkThen)
       · intro p hp; cases p <;> first | exact absurd (by decide) hp | rfl | exact ⟨rfl, rfl⟩ | exact ⟨rfl, rfl, rfl, rfl, rfl⟩)

theorem applyChan_only (g : Nat) (tRun dz : Int) (slew : Bool) (c : Nat) (s : State) : Only [.cal] s (applyChan g tRun dz slew c s) := by
  unfold applyChan
  dsimp only
  repeat' first
    | with_reducible exact Only.refl _ _
    | ((with_reducible apply Only.next (modCalCh_only _ _ _)); · decide)
    | with_reducible apply Only.ite
    | ((with_reducible apply Only.mkThen)
       · intro p hp; cases p <;> first | exact absurd (by decide) hp | rfl | exact ⟨rfl, rfl⟩ | exact ⟨rfl, rfl, rfl, rfl, rfl⟩)

theorem storeDue_only (g : Nat) (s : State) : Only [.cal, .flashOp, .flash] s (storeDue g s) := by
  unfold storeDue
  repeat' first
    | with_reducible exact Only.refl _ _
    | ((with_reducible apply Only.next (flashNext_only _)); · decide)
    | ((with_reducible apply Only.next (storeRequest_only _)); · decide)
    | with_reducible apply Only.ite
    | ((with_reducible apply Only.mkThen)
       · intro p hp; cases p <;> first | exact absurd (by decide) hp | rfl | exact ⟨rfl, rfl⟩ | exact ⟨rfl, rfl, rfl, rfl, rfl⟩)

theorem applyRun_only (g : Nat) (s : State) : Only [.irq, .cal, .hk, .flashOp, .flash] s (applyRun g s) := by
  unfold applyRun
  dsimp only
  repeat' first
    | with_reducible exact Only.refl _ _
    | ((with_reducible apply Only.next (applyChan_only _ _ _ _ _ _)); · decide)
    | ((with_reducible apply Only.next (modCalGrp_only _ _ _)); · decide)
    | ((with_reducible apply Only.next (irq_only _ _)); · decide)
    | ((with_reducible apply Only.next (storeDue_only _ _)); · decide)
    | ((with_reducible apply Only.next (autoRun_only _ _ _)); · decide)
    | ((with_reducible apply Only.next (tempTest_only _ _)); · decide)
    | with_reducible apply Only.each
    | intro _ _
    | with_reducible apply Only.ite
    | split
    | ((with_reducible apply Only.mkThen)
       · intro p hp; cases p <;> first | exact absurd (by decide) hp | rfl | exact ⟨rfl, rfl⟩ | exact ⟨rfl, rfl, rfl, rfl, rfl⟩)
    | dsimp only

theorem refreshHeld_only (g : Nat) (s : State) : Only [.cal] s (refreshHeld g s) := by
  unfold refreshHeld
  repeat' first
    | with_reducible exact Only.refl _ _
    | ((with_reducible apply Only.next (modCalCh_only _ _ _)); · decide)
    | with_reducible apply Only.each
    | intro _ _
    | with_reducible apply Only.ite
    | ((with_reducible apply Only.mkThen)
       · intro p hp; cases p <;> first | exact absurd (by decide) hp | rfl | exact ⟨rfl, rfl⟩ | exact ⟨rfl, rfl, rfl, rfl, rfl⟩)

theorem calAtOnce_only (g : Nat) (s : State) : Only [.irq, .cal, .hk, .flashOp, .flash] s (calAtOnce g s) := by
  unfold calAtOnce
  dsimp only
  repeat' first
    | with_reducible exact Only.refl _ _
    | ((with_reducible apply Only.next (refreshHeld_only _ _)); · decide)
    | ((with_reducible apply Only.next (takeHold_only _ _)); · decide)
    | ((with_reducible apply Only.next (applyRun_only _ _)); · decide)
    | with_reducible apply Only.ite
    | ((with_reducible apply Only.mkThen)
       · intro p hp; cases p <;> first | exact absurd (by decide) hp | rfl | exact ⟨rfl, rfl⟩ | exact ⟨rfl, rfl, rfl, rfl, rfl⟩)

theorem calBoundary_only (s : State) : Only [.irq, .cal, .hk, .flashOp, .flash] s (calBoundary s) := by
  unfold calBoundary
  dsimp only
  repeat' first
    | with_reducible exact Only.refl _ _
    | ((with_reducible apply Only.next (applyRun_only _ _)); · decide)
    | ((with_reducible apply Only.next (takeHold_only _ _)); · decide)
    | ((with_reducible apply Only.next (modCalCh_only _ _ _)); · decide)
    | ((with_reducible apply Only.next (modCalGrp_only _ _ _)); · decide)
    | ((with_reducible apply Only.next (refreshHeld_only _ _)); · decide)
    | with_reducible apply Only.each
    | intro _ _
    | with_reducible apply Only.ite
    | ((with_reducible apply Only.mkThen)
       · intro p hp; cases p <;> first | exact absurd (by decide) hp | rfl | exact ⟨rfl, rfl⟩ | exact ⟨rfl, rfl, rfl, rfl, rfl⟩)

theorem frameDelays_only (frame : Nat) (s : State) : Only [.cal] s (frameDelays frame s) := by
  unfold frameDelays
  dsimp only
  repeat' first
    | with_reducible exact Only.refl _ _
    | with_reducible apply Only.ite
    | ((with_reducible apply Only.mkThen)
       · intro p hp; cases p <;> first | exact absurd (by decide) hp | rfl | exact ⟨rfl, rfl⟩ | exact ⟨rfl, rfl, rfl, rfl, rfl⟩)

theorem pedAdd_only (c segA segB : Nat) (codes : List Nat) (s : State) : Only [.cal] s (pedAdd c segA segB codes s) := by
  unfold pedAdd
  dsimp only
  repeat' first
    | with_reducible exact Only.refl _ _
    | ((with_reducible apply Only.next (modCalCh_only _ _ _)); · decide)
    | with_reducible apply Only.ite
    | ((with_reducible apply Only.mkThen)
       · intro p hp; cases p <;> first | exact absurd (by decide) hp | rfl | exact ⟨rfl, rfl⟩ | exact ⟨rfl, rfl, rfl, rfl, rfl⟩)

theorem gainAdd_only (c tag : Nat) (amp : Int) (s : State) : Only [.cal] s (gainAdd c tag amp s) := by
  unfold gainAdd
  repeat' first
    | with_reducible exact Only.refl _ _
    | ((with_reducible apply Only.next (modCalCh_only _ _ _)); · decide)
    | with_reducible apply Only.ite
    | split
    | ((with_reducible apply Only.mkThen)
       · intro p hp; cases p <;> first | exact absurd (by decide) hp | rfl | exact ⟨rfl, rfl⟩ | exact ⟨rfl, rfl, rfl, rfl, rfl⟩)
    | dsimp only

theorem zeroPair_only (c : Nat) (ec ez : Int) (s : State) : Only [.cal] s (zeroPair c ec ez s) := by
  unfold zeroPair
  repeat' first
    | with_reducible exact Only.refl _ _
    | ((with_reducible apply Only.next (modCalCh_only _ _ _)); · decide)
    | with_reducible apply Only.ite
    | ((with_reducible apply Only.mkThen)
       · intro p hp; cases p <;> first | exact absurd (by decide) hp | rfl | exact ⟨rfl, rfl⟩ | exact ⟨rfl, rfl, rfl, rfl, rfl⟩)

theorem zeroAdd_only (c first : Nat) (e : Int) (s : State) : Only [.cal] s (zeroAdd c first e s) := by
  unfold zeroAdd
  dsimp only
  repeat' first
    | with_reducible exact Only.refl _ _
    | ((with_reducible apply Only.next (zeroPair_only _ _ _ _)); · decide)
    | with_reducible apply Only.each
    | intro _ _
    | with_reducible apply Only.ite
    | split
    | ((with_reducible apply Only.mkThen)
       · intro p hp; cases p <;> first | exact absurd (by decide) hp | rfl | exact ⟨rfl, rfl⟩ | exact ⟨rfl, rfl, rfl, rfl, rfl⟩)
    | dsimp only

theorem widthHit_only (c t : Nat) (s : State) : Only [.cal] s (widthHit c t s) := by
  unfold widthHit
  dsimp only
  repeat' first
    | with_reducible exact Only.refl _ _
    | ((with_reducible apply Only.next (modCalCh_only _ _ _)); · decide)
    | with_reducible apply Only.ite
    | ((with_reducible apply Only.mkThen)
       · intro p hp; cases p <;> first | exact absurd (by decide) hp | rfl | exact ⟨rfl, rfl⟩ | exact ⟨rfl, rfl, rfl, rfl, rfl⟩)

theorem stuckHeard_only (c : Nat) (s : State) : Only [.cal] s (stuckHeard c s) := by
  unfold stuckHeard
  repeat' first
    | with_reducible exact Only.refl _ _
    | ((with_reducible apply Only.next (modCalCh_only _ _ _)); · decide)
    | with_reducible apply Only.ite
    | ((with_reducible apply Only.mkThen)
       · intro p hp; cases p <;> first | exact absurd (by decide) hp | rfl | exact ⟨rfl, rfl⟩ | exact ⟨rfl, rfl, rfl, rfl, rfl⟩)

theorem askParks_only (l : List (Nat × Nat × Option Nat)) (s : State) : Only [.samp] s (askParks l s) := by
  unfold askParks
  repeat' first
    | with_reducible exact Only.refl _ _
    | with_reducible apply Only.ite
    | ((with_reducible apply Only.mkThen)
       · intro p hp; cases p <;> first | exact absurd (by decide) hp | rfl | exact ⟨rfl, rfl⟩ | exact ⟨rfl, rfl, rfl, rfl, rfl⟩)

theorem askPulses_only (l : List (Nat × Nat × Option Nat)) (s : State) : Only [.samp, .cal] s (askPulses l s) := by
  unfold askPulses
  dsimp only
  repeat' first
    | with_reducible exact Only.refl _ _
    | ((with_reducible apply Only.next (askParks_only _ _)); · decide)
    | with_reducible apply Only.ite
    | ((with_reducible apply Only.mkThen)
       · intro p hp; cases p <;> first | exact absurd (by decide) hp | rfl | exact ⟨rfl, rfl⟩ | exact ⟨rfl, rfl, rfl, rfl, rfl⟩)

theorem calShot_only (sh : Shot) (firstShot : Bool) (c : Nat) (s : State) : Only [.samp, .greys, .cal] s (calShot sh firstShot c s) := by
  unfold calShot
  dsimp only
  repeat' first
    | with_reducible exact Only.refl _ _
    | ((with_reducible apply Only.next (modGrey_only _ _ _)); · decide)
    | ((with_reducible apply Only.next (askParks_only _ _)); · decide)
    | ((with_reducible apply Only.next (askPulses_only _ _)); · decide)
    | with_reducible apply Only.ite
    | ((with_reducible apply Only.mkThen)
       · intro p hp; cases p <;> first | exact absurd (by decide) hp | rfl | exact ⟨rfl, rfl⟩ | exact ⟨rfl, rfl, rfl, rfl, rfl⟩)

theorem zeroShot_only (sh : Shot) (g : Nat) (s : State) : Only [.samp, .cal] s (zeroShot sh g s) := by
  unfold zeroShot
  dsimp only
  repeat' first
    | with_reducible exact Only.refl _ _
    | ((with_reducible apply Only.next (modCalGrp_only _ _ _)); · decide)
    | ((with_reducible apply Only.next (askPulses_only _ _)); · decide)
    | with_reducible apply Only.ite
    | ((with_reducible apply Only.mkThen)
       · intro p hp; cases p <;> first | exact absurd (by decide) hp | rfl | exact ⟨rfl, rfl⟩ | exact ⟨rfl, rfl, rfl, rfl, rfl⟩)

theorem armGate_only (sid : Nat) (s : State) : Only [.cal] s (armGate sid s) := by
  unfold armGate
  dsimp only
  repeat' first
    | with_reducible exact Only.refl _ _
    | ((with_reducible apply Only.next (modCalGrp_only _ _ _)); · decide)
    | with_reducible apply Only.each
    | intro _ _
    | with_reducible apply Only.ite
    | ((with_reducible apply Only.mkThen)
       · intro p hp; cases p <;> first | exact absurd (by decide) hp | rfl | exact ⟨rfl, rfl⟩ | exact ⟨rfl, rfl, rfl, rfl, rfl⟩)

theorem idlePark_only (c m : Nat) (s : State) : Only [.cal] s (idlePark c m s) := by
  unfold idlePark
  dsimp only
  repeat' first
    | with_reducible exact Only.refl _ _
    | ((with_reducible apply Only.next (modCalGrp_only _ _ _)); · decide)
    | with_reducible apply Only.each
    | intro _ _
    | with_reducible apply Only.ite
    | split
    | ((with_reducible apply Only.mkThen)
       · intro p hp; cases p <;> first | exact absurd (by decide) hp | rfl | exact ⟨rfl, rfl⟩ | exact ⟨rfl, rfl, rfl, rfl, rfl⟩)
    | dsimp only

theorem calDomainOff_only (g : Nat) (s : State) : Only [.cal] s (calDomainOff g s) := by
  unfold calDomainOff
  repeat' first
    | with_reducible exact Only.refl _ _
    | ((with_reducible apply Only.next (modCalGrp_only _ _ _)); · decide)
    | ((with_reducible apply Only.next (modCalCh_only _ _ _)); · decide)
    | with_reducible apply Only.each
    | intro _ _
    | with_reducible apply Only.ite
    | ((with_reducible apply Only.mkThen)
       · intro p hp; cases p <;> first | exact absurd (by decide) hp | rfl | exact ⟨rfl, rfl⟩ | exact ⟨rfl, rfl, rfl, rfl, rfl⟩)

/-! ### HkCmd -/

theorem applySources_only (e : EntW) (s : State) : Only [.hk] s (applySources e s) := by
  unfold applySources
  dsimp only
  repeat' first
    | with_reducible exact Only.refl _ _
    | with_reducible apply Only.ite
    | ((with_reducible apply Only.mkThen)
       · intro p hp; cases p <;> first | exact absurd (by decide) hp | rfl | exact ⟨rfl, rfl⟩ | exact ⟨rfl, rfl, rfl, rfl, rfl⟩)

theorem tempForward_only (e : EntW) (t : Int) (s : State) : Only [.sys, .cal, .hk, .items] s (tempForward e t s) := by
  unfold tempForward
  dsimp only
  repeat' first
    | with_reducible exact Only.refl _ _
    | ((with_reducible apply Only.next (tempHoldNow_only _)); · decide)
    | ((with_reducible apply Only.next (putItem_only _ _ _)); · decide)
    | ((with_reducible apply Only.next (modCalGrp_only _ _ _)); · decide)
    | ((with_reducible apply Only.next (tempTest_only _ _)); · decide)
    | with_reducible apply Only.ite
    | split
    | ((with_reducible apply Only.mkThen)
       · intro p hp; cases p <;> first | exact absurd (by decide) hp | rfl | exact ⟨rfl, rfl⟩ | exact ⟨rfl, rfl, rfl, rfl, rfl⟩)
    | dsimp only

theorem goodResult_only (c : Int) (o : Bool) (e : Int × Bool) (s : State) : Only [.sys, .eng, .cal, .hk, .items] s (goodResult c o e s).1 := by
  unfold goodResult
  dsimp only
  repeat' first
    | with_reducible exact Only.refl _ _
    | ((with_reducible apply Only.next (biasResult_only _ _ _)); · first | decide | exact fun _ h => h)
    | ((with_reducible apply Only.next (modHkEnt_only _ _ _)); · first | decide | exact fun _ h => h)
    | ((with_reducible apply Only.next (tempForward_only _ _ _)); · first | decide | exact fun _ h => h)
    | ((with_reducible apply Only.next (hkOut_only _ _)); · first | decide | exact fun _ h => h)
    | with_reducible apply Only.iteFst
    | ((with_reducible apply Only.mkThen); · intro p hp; cases p <;> first | exact absurd (by decide) hp | rfl | exact ⟨rfl, rfl⟩ | exact ⟨rfl, rfl, rfl, rfl, rfl⟩)

theorem pauseOver_only (cycles : Nat) (s : State) : Only [.hk] s (pauseOver cycles s) := by
  unfold pauseOver
  repeat' first
    | with_reducible exact Only.refl _ _
    | with_reducible apply Only.ite
    | ((with_reducible apply Only.mkThen)
       · intro p hp; cases p <;> first | exact absurd (by decide) hp | rfl | exact ⟨rfl, rfl⟩ | exact ⟨rfl, rfl, rfl, rfl, rfl⟩)

theorem bgNext_only (s : State) : Only [.hk] s (bgNext s) := by
  unfold bgNext
  repeat' first
    | with_reducible exact Only.refl _ _
    | with_reducible apply Only.ite
    | split
    | ((with_reducible apply Only.mkThen)
       · intro p hp; cases p <;> first | exact absurd (by decide) hp | rfl | exact ⟨rfl, rfl⟩ | exact ⟨rfl, rfl, rfl, rfl, rfl⟩)
    | dsimp only

theorem flagLast_only (short : Bool) (s : State) : Only [.hk] s (flagLast short s) := by
  unfold flagLast
  repeat' first
    | with_reducible exact Only.refl _ _
    | with_reducible apply Only.ite
    | split
    | ((with_reducible apply Only.mkThen)
       · intro p hp; cases p <;> first | exact absurd (by decide) hp | rfl | exact ⟨rfl, rfl⟩ | exact ⟨rfl, rfl, rfl, rfl, rfl⟩)
    | dsimp only

/-! ### Sampler -/

theorem addReq_only (q : ParkReq) (s : State) : Only [.samp] s (addReq q s) := by
  unfold addReq
  repeat' first
    | with_reducible exact Only.refl _ _
    | with_reducible apply Only.ite
    | ((with_reducible apply Only.mkThen)
       · intro p hp; cases p <;> first | exact absurd (by decide) hp | rfl | exact ⟨rfl, rfl⟩ | exact ⟨rfl, rfl, rfl, rfl, rfl⟩)

theorem modWin_only (wid : Nat) (f : Win → Win) (s : State) : Only [.samp] s (modWin wid f s) := by
  unfold modWin
  repeat' first
    | with_reducible exact Only.refl _ _
    | with_reducible apply Only.ite
    | ((with_reducible apply Only.mkThen)
       · intro p hp; cases p <;> first | exact absurd (by decide) hp | rfl | exact ⟨rfl, rfl⟩ | exact ⟨rfl, rfl, rfl, rfl, rfl⟩)

theorem takeSpare_only (c : Nat) (s : State) : Only [.free, .samp] s (takeSpare c s).2 := by
  unfold takeSpare
  exact .andThen (modSampCh_only _ _ _) (.andThen (takeFree_only _ _) (.refl _ _))

theorem joinWin_only (q : ParkReq) (w : Win) (s : State) : Only [.samp] s (joinWin q w s) := by
  unfold joinWin
  dsimp only
  repeat' first
    | with_reducible exact Only.refl _ _
    | ((with_reducible apply Only.next (modSampCh_only _ _ _)); · decide)
    | ((with_reducible apply Only.next (modWin_only _ _ _)); · decide)
    | with_reducible apply Only.ite
    | split
    | ((with_reducible apply Only.mkThen)
       · intro p hp; cases p <;> first | exact absurd (by decide) hp | rfl | exact ⟨rfl, rfl⟩ | exact ⟨rfl, rfl, rfl, rfl, rfl⟩)
    | dsimp only

theorem lostPark_only (c : Nat) (s : State) : Only [.counts, .eng] s (lostPark c s) := by
  unfold lostPark
  dsimp only
  repeat' first
    | with_reducible exact Only.refl _ _
    | ((with_reducible apply Only.next (modHdr_only _ _)); · decide)
    | ((with_reducible apply Only.next (modEngCh_only _ _ _)); · decide)
    | with_reducible apply Only.ite
    | ((with_reducible apply Only.mkThen)
       · intro p hp; cases p <;> first | exact absurd (by decide) hp | rfl | exact ⟨rfl, rfl⟩ | exact ⟨rfl, rfl, rfl, rfl, rfl⟩)

theorem refuse_only (q : ParkReq) (s : State) : Only [.counts, .samp, .eng] s (refuse q s) := by
  unfold refuse
  repeat' first
    | with_reducible exact Only.refl _ _
    | ((with_reducible apply Only.next (lostPark_only _ _)); · decide)
    | ((with_reducible apply Only.next (modSampCh_only _ _ _)); · decide)
    | with_reducible apply Only.ite
    | split
    | ((with_reducible apply Only.mkThen)
       · intro p hp; cases p <;> first | exact absurd (by decide) hp | rfl | exact ⟨rfl, rfl⟩ | exact ⟨rfl, rfl, rfl, rfl, rfl⟩)
    | dsimp only

theorem reserve_only (q : ParkReq) (e b : Nat) (s : State) : Only [.free, .samp] s (reserve q e b s) := by
  unfold reserve
  dsimp only
  repeat' first
    | with_reducible exact Only.refl _ _
    | ((with_reducible apply Only.next (takeSpare_only _ _)); · decide)
    | with_reducible apply Only.ite
    | ((with_reducible apply Only.mkThen)
       · intro p hp; cases p <;> first | exact absurd (by decide) hp | rfl | exact ⟨rfl, rfl⟩ | exact ⟨rfl, rfl, rfl, rfl, rfl⟩)

theorem decide1_only (b : Nat) (q : ParkReq) (s : State) : Only [.free, .counts, .samp, .eng] s (decide1 b q s) := by
  unfold decide1
  dsimp only
  repeat' first
    | with_reducible exact Only.refl _ _
    | ((with_reducible apply Only.next (joinWin_only _ _ _)); · decide)
    | ((with_reducible apply Only.next (refuse_only _ _)); · decide)
    | ((with_reducible apply Only.next (lostPark_only _ _)); · decide)
    | ((with_reducible apply Only.next (modSampCh_only _ _ _)); · decide)
    | ((with_reducible apply Only.next (reserve_only _ _ _ _)); · decide)
    | with_reducible apply Only.ite
    | split
    | ((with_reducible apply Only.mkThen)
       · intro p hp; cases p <;> first | exact absurd (by decide) hp | rfl | exact ⟨rfl, rfl⟩ | exact ⟨rfl, rfl, rfl, rfl, rfl⟩)
    | dsimp only

theorem parkWin_only (b : Nat) (w : Win) (s : State) : Only [.samp] s (parkWin b w s) := by
  unfold parkWin
  dsimp only
  repeat' first
    | with_reducible exact Only.refl _ _
    | ((with_reducible apply Only.next (modWin_only _ _ _)); · decide)
    | ((with_reducible apply Only.next (modSampCh_only _ _ _)); · decide)
    | with_reducible apply Only.ite
    | ((with_reducible apply Only.mkThen)
       · intro p hp; cases p <;> first | exact absurd (by decide) hp | rfl | exact ⟨rfl, rfl⟩ | exact ⟨rfl, rfl, rfl, rfl, rfl⟩)

theorem replaced_only (c : Nat) (s : State) : Only [.cal, .hk] s (replaced c s) := by
  unfold replaced
  repeat' first
    | with_reducible exact Only.refl _ _
    | ((with_reducible apply Only.next (autoRun_only _ _ _)); · decide)
    | with_reducible apply Only.ite
    | ((with_reducible apply Only.mkThen)
       · intro p hp; cases p <;> first | exact absurd (by decide) hp | rfl | exact ⟨rfl, rfl⟩ | exact ⟨rfl, rfl, rfl, rfl, rfl⟩)

theorem returnSeg_only (c k : Nat) (s : State) : Only [.samp, .cal, .hk] s (returnSeg c k s) := by
  unfold returnSeg
  repeat' first
    | with_reducible exact Only.refl _ _
    | ((with_reducible apply Only.next (replaced_only _ _)); · decide)
    | ((with_reducible apply Only.next (modSampCh_only _ _ _)); · decide)
    | with_reducible apply Only.ite
    | ((with_reducible apply Only.mkThen)
       · intro p hp; cases p <;> first | exact absurd (by decide) hp | rfl | exact ⟨rfl, rfl⟩ | exact ⟨rfl, rfl, rfl, rfl, rfl⟩)

/-! ### Front -/

theorem cfarAgain_only (c : Nat) (s : State) : Only [.greys] s (cfarAgain c s) := by
  unfold cfarAgain
  repeat' first
    | with_reducible exact Only.refl _ _
    | ((with_reducible apply Only.next (modGrey_only _ _ _)); · decide)
    | with_reducible apply Only.ite
    | ((with_reducible apply Only.mkThen)
       · intro p hp; cases p <;> first | exact absurd (by decide) hp | rfl | exact ⟨rfl, rfl⟩ | exact ⟨rfl, rfl, rfl, rfl, rfl⟩)

theorem setRange_only (c rng : Nat) (s : State) : Only [.fronts, .greys] s (setRange c rng s) := by
  unfold setRange
  dsimp only
  repeat' first
    | with_reducible exact Only.refl _ _
    | ((with_reducible apply Only.next (modFront_only _ _ _)); · decide)
    | ((with_reducible apply Only.next (cfarAgain_only _ _)); · decide)
    | with_reducible apply Only.ite
    | ((with_reducible apply Only.mkThen)
       · intro p hp; cases p <;> first | exact absurd (by decide) hp | rfl | exact ⟨rfl, rfl⟩ | exact ⟨rfl, rfl, rfl, rfl, rfl⟩)

theorem applyRange_only (c : Nat) (s : State) : Only [.fronts, .greys] s (applyRange c s) := by
  unfold applyRange
  repeat' first
    | with_reducible exact Only.refl _ _
    | ((with_reducible apply Only.next (setRange_only _ _ _)); · decide)
    | with_reducible apply Only.ite
    | split
    | ((with_reducible apply Only.mkThen)
       · intro p hp; cases p <;> first | exact absurd (by decide) hp | rfl | exact ⟨rfl, rfl⟩ | exact ⟨rfl, rfl, rfl, rfl, rfl⟩)
    | dsimp only

theorem openGate_only (x : Shot) (c : Nat) (s : State) : Only [.fronts, .greys] s (openGate x c s) := by
  unfold openGate
  dsimp only
  repeat' first
    | with_reducible exact Only.refl _ _
    | ((with_reducible apply Only.next (applyRange_only _ _)); · decide)
    | ((with_reducible apply Only.next (modFront_only _ _ _)); · decide)
    | with_reducible apply Only.ite
    | ((with_reducible apply Only.mkThen)
       · intro p hp; cases p <;> first | exact absurd (by decide) hp | rfl | exact ⟨rfl, rfl⟩ | exact ⟨rfl, rfl, rfl, rfl, rfl⟩)

theorem crossed_only (c t : Nat) (trig : Bool) (s : State) : Only [.fronts] s (crossed c t trig s) := by
  unfold crossed
  repeat' first
    | with_reducible exact Only.refl _ _
    | ((with_reducible apply Only.next (modFront_only _ _ _)); · decide)
    | with_reducible apply Only.ite
    | ((with_reducible apply Only.mkThen)
       · intro p hp; cases p <;> first | exact absurd (by decide) hp | rfl | exact ⟨rfl, rfl⟩ | exact ⟨rfl, rfl, rfl, rfl, rfl⟩)

theorem trigLimitHits_only (c t : Nat) (s : State) : Only [.free, .fltQueue] s (trigLimitHits c t s) := by
  unfold trigLimitHits
  dsimp only
  repeat' first
    | with_reducible exact Only.refl _ _
    | ((with_reducible apply Only.next (raiseOpen_only _ _ _)); · decide)
    | with_reducible apply Only.each
    | intro _ _
    | with_reducible apply Only.ite
    | ((with_reducible apply Only.mkThen)
       · intro p hp; cases p <;> first | exact absurd (by decide) hp | rfl | exact ⟨rfl, rfl⟩ | exact ⟨rfl, rfl, rfl, rfl, rfl⟩)

theorem noteTrig_only (c t : Nat) (s : State) : Only [.shots] s (noteTrig c t s) := by
  unfold noteTrig
  repeat' first
    | with_reducible exact Only.refl _ _
    | ((with_reducible apply Only.next (modShots_only _ _)); · decide)
    | with_reducible apply Only.ite
    | ((with_reducible apply Only.mkThen)
       · intro p hp; cases p <;> first | exact absurd (by decide) hp | rfl | exact ⟨rfl, rfl⟩ | exact ⟨rfl, rfl, rfl, rfl, rfl⟩)

theorem zoneMatch_only (c t : Nat) (s : State) : Only [.shots, .zone] s (zoneMatch c t s) := by
  unfold zoneMatch
  dsimp only
  repeat' first
    | with_reducible exact Only.refl _ _
    | ((with_reducible apply Only.next (modShots_only _ _)); · decide)
    | with_reducible apply Only.ite
    | ((with_reducible apply Only.mkThen)
       · intro p hp; cases p <;> first | exact absurd (by decide) hp | rfl | exact ⟨rfl, rfl⟩ | exact ⟨rfl, rfl, rfl, rfl, rfl⟩)

theorem noteSat_only (c t : Nat) (s : State) : Only [.shots] s (noteSat c t s) := by
  unfold noteSat
  repeat' first
    | with_reducible exact Only.refl _ _
    | ((with_reducible apply Only.next (modShots_only _ _)); · decide)
    | with_reducible apply Only.ite
    | ((with_reducible apply Only.mkThen)
       · intro p hp; cases p <;> first | exact absurd (by decide) hp | rfl | exact ⟨rfl, rfl⟩ | exact ⟨rfl, rfl, rfl, rfl, rfl⟩)

theorem countSat_only (x : Shot) (cs : List Nat) (s : State) : Only [.fronts] s (countSat x cs s) := by
  unfold countSat
  repeat' first
    | with_reducible exact Only.refl _ _
    | ((with_reducible apply Only.next (modFront_only _ _ _)); · decide)
    | with_reducible apply Only.each
    | intro _ _
    | with_reducible apply Only.ite
    | ((with_reducible apply Only.mkThen)
       · intro p hp; cases p <;> first | exact absurd (by decide) hp | rfl | exact ⟨rfl, rfl⟩ | exact ⟨rfl, rfl, rfl, rfl, rfl⟩)

theorem zoneShot_only (x : Shot) (s : State) : Only [.zone] s (zoneShot x s) := by
  unfold zoneShot
  dsimp only
  repeat' first
    | with_reducible exact Only.refl _ _
    | with_reducible apply Only.ite
    | ((with_reducible apply Only.mkThen)
       · intro p hp; cases p <;> first | exact absurd (by decide) hp | rfl | exact ⟨rfl, rfl⟩ | exact ⟨rfl, rfl, rfl, rfl, rfl⟩)

theorem zoneDetect_only (c : Nat) (h : Nat × Nat) (s : State) : Only [.zone] s (zoneDetect c h s) := by
  unfold zoneDetect
  dsimp only
  repeat' first
    | with_reducible exact Only.refl _ _
    | with_reducible apply Only.ite
    | ((with_reducible apply Only.mkThen)
       · intro p hp; cases p <;> first | exact absurd (by decide) hp | rfl | exact ⟨rfl, rfl⟩ | exact ⟨rfl, rfl, rfl, rfl, rfl⟩)

theorem amberOver_only (sid : Nat) (above : List Nat) (c : Nat) (s : State) : Only [.shots, .fronts] s (amberOver sid above c s) := by
  unfold amberOver
  dsimp only
  repeat' first
    | with_reducible exact Only.refl _ _
    | ((with_reducible apply Only.next (modFront_only _ _ _)); · decide)
    | ((with_reducible apply Only.next (noteSat_only _ _ _)); · decide)
    | with_reducible apply Only.ite
    | ((with_reducible apply Only.mkThen)
       · intro p hp; cases p <;> first | exact absurd (by decide) hp | rfl | exact ⟨rfl, rfl⟩ | exact ⟨rfl, rfl, rfl, rfl, rfl⟩)

theorem noteStart_only (i t : Nat) (s : State) : Only [.shots] s (noteStart i t s) := by
  unfold noteStart
  repeat' first
    | with_reducible exact Only.refl _ _
    | ((with_reducible apply Only.next (modShots_only _ _)); · decide)
    | with_reducible apply Only.ite
    | ((with_reducible apply Only.mkThen)
       · intro p hp; cases p <;> first | exact absurd (by decide) hp | rfl | exact ⟨rfl, rfl⟩ | exact ⟨rfl, rfl, rfl, rfl, rfl⟩)

/-! ### Records -/

theorem linkFresh_only (v : Nat) (fh rt : Bool) (b : List Byte) (s : State) : Only [.link] s (linkFresh v fh rt b s) := by
  unfold linkFresh
  dsimp only
  repeat' first
    | with_reducible exact Only.refl _ _
    | with_reducible apply Only.ite
    | ((with_reducible apply Only.mkThen)
       · intro p hp; cases p <;> first | exact absurd (by decide) hp | rfl | exact ⟨rfl, rfl⟩ | exact ⟨rfl, rfl, rfl, rfl, rfl⟩)

theorem linkJoin_only (v : Nat) (b : List Byte) (s : State) : Only [.link] s (linkJoin v b s) := by
  unfold linkJoin
  repeat' first
    | with_reducible exact Only.refl _ _
    | with_reducible apply Only.ite
    | split
    | ((with_reducible apply Only.mkThen)
       · intro p hp; cases p <;> first | exact absurd (by decide) hp | rfl | exact ⟨rfl, rfl⟩ | exact ⟨rfl, rfl, rfl, rfl, rfl⟩)
    | dsimp only

theorem archPut_only (ring : Nat) (b : List Byte) (s : State) : Only [.arch] s (archPut ring b s) := by
  unfold archPut
  dsimp only
  repeat' first
    | with_reducible exact Only.refl _ _
    | with_reducible apply Only.ite
    | ((with_reducible apply Only.mkThen)
       · intro p hp; cases p <;> first | exact absurd (by decide) hp | rfl | exact ⟨rfl, rfl⟩ | exact ⟨rfl, rfl, rfl, rfl, rfl⟩)

theorem putEcho_only (b : List Byte) (s : State) : Only [.link, .arch] s (putEcho b s) := by
  unfold putEcho
  repeat' first
    | with_reducible exact Only.refl _ _
    | ((with_reducible apply Only.next (archPut_only _ _ _)); · decide)
    | ((with_reducible apply Only.next (linkJoin_only _ _ _)); · decide)
    | with_reducible apply Only.ite
    | ((with_reducible apply Only.mkThen)
       · intro p hp; cases p <;> first | exact absurd (by decide) hp | rfl | exact ⟨rfl, rfl⟩ | exact ⟨rfl, rfl, rfl, rfl, rfl⟩)

theorem putHeader_only (b : List Byte) (s : State) : Only [.link, .arch] s (putHeader b s) := by
  unfold putHeader
  repeat' first
    | with_reducible exact Only.refl _ _
    | ((with_reducible apply Only.next (archPut_only _ _ _)); · decide)
    | ((with_reducible apply Only.next (linkFresh_only _ _ _ _ _)); · decide)
    | with_reducible apply Only.ite
    | ((with_reducible apply Only.mkThen)
       · intro p hp; cases p <;> first | exact absurd (by decide) hp | rfl | exact ⟨rfl, rfl⟩ | exact ⟨rfl, rfl, rfl, rfl, rfl⟩)

theorem putRaw_only (b : List Byte) (s : State) : Only [.link, .arch] s (putRaw b s) := by
  unfold putRaw
  repeat' first
    | with_reducible exact Only.refl _ _
    | ((with_reducible apply Only.next (archPut_only _ _ _)); · decide)
    | ((with_reducible apply Only.next (linkJoin_only _ _ _)); · decide)
    | with_reducible apply Only.ite
    | ((with_reducible apply Only.mkThen)
       · intro p hp; cases p <;> first | exact absurd (by decide) hp | rfl | exact ⟨rfl, rfl⟩ | exact ⟨rfl, rfl, rfl, rfl, rfl⟩)

theorem putHist_only (ambient toLink toArch : Bool) (b : List Byte) (s : State) : Only [.link, .arch] s (putHist ambient toLink toArch b s) := by
  unfold putHist
  dsimp only
  repeat' first
    | with_reducible exact Only.refl _ _
    | ((with_reducible apply Only.next (linkFresh_only _ _ _ _ _)); · decide)
    | ((with_reducible apply Only.next (archPut_only _ _ _)); · decide)
    | with_reducible apply Only.ite
    | ((with_reducible apply Only.mkThen)
       · intro p hp; cases p <;> first | exact absurd (by decide) hp | rfl | exact ⟨rfl, rfl⟩ | exact ⟨rfl, rfl, rfl, rfl, rfl⟩)

/-! ### Grey -/

theorem greyRestart_only (r : Rd) (c : Nat) (s : State) : Only [.greys] s (greyRestart r c s) := by
  unfold greyRestart
  repeat' first
    | with_reducible exact Only.refl _ _
    | ((with_reducible apply Only.next (cfarAgain_only _ _)); · decide)
    | ((with_reducible apply Only.next (modGrey_only _ _ _)); · decide)
    | with_reducible apply Only.ite
    | ((with_reducible apply Only.mkThen)
       · intro p hp; cases p <;> first | exact absurd (by decide) hp | rfl | exact ⟨rfl, rfl⟩ | exact ⟨rfl, rfl, rfl, rfl, rfl⟩)

theorem greyWrite_only (c : Nat) (s : State) : Only [.greys] s (greyWrite c s) := by
  unfold greyWrite
  repeat' first
    | with_reducible exact Only.refl _ _
    | ((with_reducible apply Only.next (modGrey_only _ _ _)); · decide)
    | with_reducible apply Only.ite
    | ((with_reducible apply Only.mkThen)
       · intro p hp; cases p <;> first | exact absurd (by decide) hp | rfl | exact ⟨rfl, rfl⟩ | exact ⟨rfl, rfl, rfl, rfl, rfl⟩)

theorem greyReopen_only (c : Nat) (s : State) : Only [.greys] s (greyReopen c s) := by
  unfold greyReopen
  repeat' first
    | with_reducible exact Only.refl _ _
    | ((with_reducible apply Only.next (cfarAgain_only _ _)); · decide)
    | ((with_reducible apply Only.next (modGrey_only _ _ _)); · decide)
    | with_reducible apply Only.ite
    | ((with_reducible apply Only.mkThen)
       · intro p hp; cases p <;> first | exact absurd (by decide) hp | rfl | exact ⟨rfl, rfl⟩ | exact ⟨rfl, rfl, rfl, rfl, rfl⟩)

theorem greyClose_only (r0 : Rd) (c : Nat) (s : State) : Only [.free, .greys] s (greyClose r0 c s) := by
  unfold greyClose
  dsimp only
  repeat' first
    | with_reducible exact Only.refl _ _
    | ((with_reducible apply Only.next (takeFree_only _ _)); · decide)
    | ((with_reducible apply Only.next (cfarAgain_only _ _)); · decide)
    | ((with_reducible apply Only.next (modGrey_only _ _ _)); · decide)
    | with_reducible apply Only.ite
    | ((with_reducible apply Only.mkThen)
       · intro p hp; cases p <;> first | exact absurd (by decide) hp | rfl | exact ⟨rfl, rfl⟩ | exact ⟨rfl, rfl, rfl, rfl, rfl⟩)

theorem greyBoundary_only (r0 : Rd) (s : State) : Only [.free, .eng, .greys, .link, .arch] s (greyBoundary r0 s) := by
  unfold greyBoundary
  dsimp only
  repeat' first
    | with_reducible exact Only.refl _ _
    | ((with_reducible apply Only.next (greyWrite_only _ _)); · decide)
    | ((with_reducible apply Only.next (greyRestart_only _ _ _)); · decide)
    | ((with_reducible apply Only.next (greyClose_only _ _ _)); · decide)
    | ((with_reducible apply Only.next (putHist_only _ _ _ _ _)); · decide)
    | ((with_reducible apply Only.next (greyReopen_only _ _)); · decide)
    | ((with_reducible apply Only.next (cfarAgain_only _ _)); · decide)
    | with_reducible apply Only.each
    | intro _ _
    | with_reducible apply Only.ite
    | ((with_reducible apply Only.mkThen)
       · intro p hp; cases p <;> first | exact absurd (by decide) hp | rfl | exact ⟨rfl, rfl⟩ | exact ⟨rfl, rfl, rfl, rfl, rfl⟩)

theorem greyHeader_only (s : State) : Only [.free] s (greyHeader s).2 := by
  unfold greyHeader
  dsimp only
  split
  · dsimp only
    repeat' first
      | exact .refl _ _
      | ((with_reducible apply Only.next (takeFree_only _ _)); · decide)
  · exact .refl _ _

theorem greyTake_only (ep : Nat) (w : Win) (x1 y : Vals) (emitted : Bool) (s : State) : Only [.greys, .cal] s (greyTake ep w x1 y emitted s) := by
  unfold greyTake
  dsimp only
  repeat' first
    | with_reducible exact Only.refl _ _
    | ((with_reducible apply Only.next (pedAdd_only _ _ _ _ _)); · decide)
    | ((with_reducible apply Only.next (modGrey_only _ _ _)); · decide)
    | with_reducible apply Only.ite
    | ((with_reducible apply Only.mkThen)
       · intro p hp; cases p <;> first | exact absurd (by decide) hp | rfl | exact ⟨rfl, rfl⟩ | exact ⟨rfl, rfl, rfl, rfl, rfl⟩)

/-! ### Stack -/

theorem startSpill_only (r : Rd) (reason fb fn : Nat) (victim : Option Nat) (closed : Bool) (geom : Nat → Bool) (keys : List Nat) (s : State) : Only [.stk] s (startSpill r reason fb fn victim closed geom keys s) := by
  unfold startSpill
  dsimp only
  repeat' first
    | with_reducible exact Only.refl _ _
    | with_reducible apply Only.ite
    | ((with_reducible apply Only.mkThen)
       · intro p hp; cases p <;> first | exact absurd (by decide) hp | rfl | exact ⟨rfl, rfl⟩ | exact ⟨rfl, rfl, rfl, rfl, rfl⟩)

theorem toMerge_only (q : Spill) (i : SpillItem) (s : State) : Only [.stk] s (toMerge q i s) := by
  unfold toMerge
  dsimp only
  repeat' first
    | with_reducible exact Only.refl _ _
    | with_reducible apply Only.ite
    | ((with_reducible apply Only.mkThen)
       · intro p hp; cases p <;> first | exact absurd (by decide) hp | rfl | exact ⟨rfl, rfl⟩ | exact ⟨rfl, rfl, rfl, rfl, rfl⟩)

theorem putSpill_only (q : Spill) (i : SpillItem) (s : State) : Only [.stk, .link, .arch] s (putSpill q i s) := by
  unfold putSpill
  dsimp only
  repeat' first
    | with_reducible exact Only.refl _ _
    | ((with_reducible apply Only.next (putHist_only _ _ _ _ _)); · decide)
    | ((with_reducible apply Only.next (toMerge_only _ _ _)); · decide)
    | with_reducible apply Only.ite
    | ((with_reducible apply Only.mkThen)
       · intro p hp; cases p <;> first | exact absurd (by decide) hp | rfl | exact ⟨rfl, rfl⟩ | exact ⟨rfl, rfl, rfl, rfl, rfl⟩)

theorem setSpills_only (l : List Spill) (s : State) : Only [.stk] s (setSpills l s) := by
  unfold setSpills
  repeat' first
    | with_reducible exact Only.refl _ _
    | with_reducible apply Only.ite
    | ((with_reducible apply Only.mkThen)
       · intro p hp; cases p <;> first | exact absurd (by decide) hp | rfl | exact ⟨rfl, rfl⟩ | exact ⟨rfl, rfl, rfl, rfl, rfl⟩)

theorem spillPut_only (t : Nat) (s : State) : Only [.stk, .link, .arch] s (spillPut t s) := by
  unfold spillPut
  repeat' first
    | with_reducible exact Only.refl _ _
    | ((with_reducible apply Only.next (putSpill_only _ _ _)); · decide)
    | ((with_reducible apply Only.next (setSpills_only _ _)); · decide)
    | with_reducible apply Only.ite
    | split
    | ((with_reducible apply Only.mkThen)
       · intro p hp; cases p <;> first | exact absurd (by decide) hp | rfl | exact ⟨rfl, rfl⟩ | exact ⟨rfl, rfl, rfl, rfl, rfl⟩)
    | dsimp only

theorem spillEnd_only (s : State) : Only [.stk] s (spillEnd s) := by
  unfold spillEnd
  dsimp only
  repeat' first
    | with_reducible exact Only.refl _ _
    | ((with_reducible apply Only.next (setSpills_only _ _)); · decide)
    | with_reducible apply Only.ite
    | split
    | ((with_reducible apply Only.mkThen)
       · intro p hp; cases p <;> first | exact absurd (by decide) hp | rfl | exact ⟨rfl, rfl⟩ | exact ⟨rfl, rfl, rfl, rfl, rfl⟩)
    | dsimp only

theorem spillRun_only (n : Nat) (s : State) : Only [.stk, .link, .arch] s (spillRun n s) := by
  induction n generalizing s with
  | zero => exact .refl _ _
  | succ n ih =>
    unfold spillRun
    repeat' first
      | with_reducible exact Only.refl _ _
      | ((with_reducible apply Only.next (ih _)); · first | decide | exact fun _ h => h)
      | ((with_reducible apply Only.next (spillEnd_only _)); · first | decide | exact fun _ h => h)
      | ((with_reducible apply Only.next (spillPut_only _ _)); · first | decide | exact fun _ h => h)
      | ((with_reducible apply Only.next (setSpills_only _ _)); · first | decide | exact fun _ h => h)
      | split
      | dsimp only

theorem spillSync_only (s : State) : Only [.stk, .link, .arch] s (spillSync s) := by
  unfold spillSync
  repeat' first
    | with_reducible exact Only.refl _ _
    | ((with_reducible apply Only.next (spillRun_only _ _)); · decide)
    | with_reducible apply Only.ite
    | ((with_reducible apply Only.mkThen)
       · intro p hp; cases p <;> first | exact absurd (by decide) hp | rfl | exact ⟨rfl, rfl⟩ | exact ⟨rfl, rfl, rfl, rfl, rfl⟩)

theorem peakCount_only (r : Rd) (k i h : Nat) (s : State) : Only [.free, .stk] s (peakCount r k i h s) := by
  unfold peakCount
  dsimp only
  repeat' first
    | with_reducible exact Only.refl _ _
    | ((with_reducible apply Only.next (takeFree_only _ _)); · decide)
    | with_reducible apply Only.ite
    | split
    | ((with_reducible apply Only.mkThen)
       · intro p hp; cases p <;> first | exact absurd (by decide) hp | rfl | exact ⟨rfl, rfl⟩ | exact ⟨rfl, rfl, rfl, rfl, rfl⟩)
    | dsimp only

theorem countBin_only (r : Rd) (c d tof : Nat) (s : State) : Only [.free, .stk, .upd] s (countBin r c d tof s) := by
  unfold countBin
  dsimp only
  repeat' first
    | with_reducible exact Only.refl _ _
    | ((with_reducible apply Only.next (peakCount_only _ _ _ _ _)); · decide)
    | ((with_reducible apply Only.next (setSpills_only _ _)); · decide)
    | with_reducible apply Only.ite
    | split
    | ((with_reducible apply Only.mkThen)
       · intro p hp; cases p <;> first | exact absurd (by decide) hp | rfl | exact ⟨rfl, rfl⟩ | exact ⟨rfl, rfl, rfl, rfl, rfl⟩)
    | dsimp only

theorem touchSet_only (d : Nat) (s : State) : Only [.stk] s (touchSet d s) := by
  unfold touchSet
  repeat' first
    | with_reducible exact Only.refl _ _
    | with_reducible apply Only.ite
    | ((with_reducible apply Only.mkThen)
       · intro p hp; cases p <;> first | exact absurd (by decide) hp | rfl | exact ⟨rfl, rfl⟩ | exact ⟨rfl, rfl, rfl, rfl, rfl⟩)

theorem allotSet_only (r : Rd) (d : Nat) (s : State) : Only [.stk] s (allotSet r d s) := by
  unfold allotSet
  repeat' first
    | with_reducible exact Only.refl _ _
    | ((with_reducible apply Only.next (touchSet_only _ _)); · decide)
    | with_reducible apply Only.ite
    | ((with_reducible apply Only.mkThen)
       · intro p hp; cases p <;> first | exact absurd (by decide) hp | rfl | exact ⟨rfl, rfl⟩ | exact ⟨rfl, rfl, rfl, rfl, rfl⟩)

theorem countSweep_only (r : Rd) (c d tof : Nat) (s : State) : Only [.free, .stk, .upd] s (countSweep r c d tof s) := by
  unfold countSweep
  dsimp only
  repeat' first
    | with_reducible exact Only.refl _ _
    | ((with_reducible apply Only.next (touchSet_only _ _)); · decide)
    | ((with_reducible apply Only.next (countBin_only _ _ _ _ _)); · decide)
    | ((with_reducible apply Only.next (allotSet_only _ _ _)); · decide)
    | ((with_reducible apply Only.next (startSpill_only _ _ _ _ _ _ _ _ _)); · decide)
    | with_reducible apply Only.ite
    | ((with_reducible apply Only.mkThen)
       · intro p hp; cases p <;> first | exact absurd (by decide) hp | rfl | exact ⟨rfl, rfl⟩ | exact ⟨rfl, rfl, rfl, rfl, rfl⟩)

theorem countEcho_only (c d tof : Nat) (s : State) : Only [.free, .stk, .link, .arch, .upd] s (countEcho c d tof s) := by
  unfold countEcho
  dsimp only
  repeat' first
    | with_reducible exact Only.refl _ _
    | ((with_reducible apply Only.next (countSweep_only _ _ _ _ _)); · decide)
    | ((with_reducible apply Only.next (spillSync_only _)); · decide)
    | ((with_reducible apply Only.next (countBin_only _ _ _ _ _)); · decide)
    | with_reducible apply Only.ite
    | ((with_reducible apply Only.mkThen)
       · intro p hp; cases p <;> first | exact absurd (by decide) hp | rfl | exact ⟨rfl, rfl⟩ | exact ⟨rfl, rfl, rfl, rfl, rfl⟩)

theorem modStack_only (f : Stack → Stack) (s : State) : Only [.stk] s (modStack f s) := by
  unfold modStack
  repeat' first
    | with_reducible exact Only.refl _ _
    | with_reducible apply Only.ite
    | ((with_reducible apply Only.mkThen)
       · intro p hp; cases p <;> first | exact absurd (by decide) hp | rfl | exact ⟨rfl, rfl⟩ | exact ⟨rfl, rfl, rfl, rfl, rfl⟩)

theorem claimStacks_only (r : Rd) (sid : Nat) (s : State) : Only [.shots, .stk] s (claimStacks r sid s) := by
  unfold claimStacks
  dsimp only
  repeat' first
    | with_reducible exact Only.refl _ _
    | ((with_reducible apply Only.next (modShot_only _ _ _)); · decide)
    | with_reducible apply Only.ite
    | split
    | ((with_reducible apply Only.mkThen)
       · intro p hp; cases p <;> first | exact absurd (by decide) hp | rfl | exact ⟨rfl, rfl⟩ | exact ⟨rfl, rfl, rfl, rfl, rfl⟩)
    | dsimp only

theorem stkMissed_only (s : State) : Only [.stk] s (stkMissed s) := by
  unfold stkMissed
  repeat' first
    | with_reducible exact Only.refl _ _
    | with_reducible apply Only.ite
    | ((with_reducible apply Only.mkThen)
       · intro p hp; cases p <;> first | exact absurd (by decide) hp | rfl | exact ⟨rfl, rfl⟩ | exact ⟨rfl, rfl, rfl, rfl, rfl⟩)

theorem openStack_only (r : Rd) (x : Shot) (g : Gate) (k : Comp) (s : State) : Only [.shots, .stk] s (openStack r x g k s) := by
  unfold openStack
  dsimp only
  repeat' first
    | with_reducible exact Only.refl _ _
    | ((with_reducible apply Only.next (modShot_only _ _ _)); · decide)
    | with_reducible apply Only.each
    | intro _ _
    | with_reducible apply Only.ite
    | split
    | ((with_reducible apply Only.mkThen)
       · intro p hp; cases p <;> first | exact absurd (by decide) hp | rfl | exact ⟨rfl, rfl⟩ | exact ⟨rfl, rfl, rfl, rfl, rfl⟩)
    | dsimp only

theorem closeAt_only (x : Shot) (t : Stack) (s : State) : Only [.shots, .stk] s (closeAt x t s) := by
  unfold closeAt
  dsimp only
  repeat' first
    | with_reducible exact Only.refl _ _
    | ((with_reducible apply Only.next (modStack_only _ _)); · decide)
    | ((with_reducible apply Only.next (modShot_only _ _ _)); · decide)
    | ((with_reducible apply Only.next (modShots_only _ _)); · decide)
    | with_reducible apply Only.ite
    | split
    | ((with_reducible apply Only.mkThen)
       · intro p hp; cases p <;> first | exact absurd (by decide) hp | rfl | exact ⟨rfl, rfl⟩ | exact ⟨rfl, rfl, rfl, rfl, rfl⟩)
    | dsimp only

theorem openNext_only (r : Rd) (x : Shot) (g : Gate) (k : Comp) (s : State) : Only [.shots, .stk] s (openNext r x g k s) := by
  unfold openNext
  repeat' first
    | with_reducible exact Only.refl _ _
    | ((with_reducible apply Only.next (stkMissed_only _)); · decide)
    | ((with_reducible apply Only.next (openStack_only _ _ _ _ _)); · decide)
    | with_reducible apply Only.ite
    | ((with_reducible apply Only.mkThen)
       · intro p hp; cases p <;> first | exact absurd (by decide) hp | rfl | exact ⟨rfl, rfl⟩ | exact ⟨rfl, rfl, rfl, rfl, rfl⟩)

theorem takeComp_only (r : Rd) (x : Shot) (g : Gate) (k : Comp) (s : State) : Only [.shots, .stk] s (takeComp r x g k s) := by
  unfold takeComp
  repeat' first
    | with_reducible exact Only.refl _ _
    | ((with_reducible apply Only.next (openNext_only _ _ _ _ _)); · decide)
    | ((with_reducible apply Only.next (closeAt_only _ _ _)); · decide)
    | ((with_reducible apply Only.next (stkMissed_only _)); · decide)
    | ((with_reducible apply Only.next (modStack_only _ _)); · decide)
    | with_reducible apply Only.ite
    | split
    | ((with_reducible apply Only.mkThen)
       · intro p hp; cases p <;> first | exact absurd (by decide) hp | rfl | exact ⟨rfl, rfl⟩ | exact ⟨rfl, rfl, rfl, rfl, rfl⟩)
    | dsimp only

theorem neighbourGates_only (n t : Nat) (s : State) : Only [.shots, .samp] s (neighbourGates n t s) := by
  unfold neighbourGates
  dsimp only
  repeat' first
    | with_reducible exact Only.refl _ _
    | ((with_reducible apply Only.next (modShot_only _ _ _)); · decide)
    | with_reducible apply Only.each
    | intro _ _
    | with_reducible apply Only.ite
    | split
    | ((with_reducible apply Only.mkThen)
       · intro p hp; cases p <;> first | exact absurd (by decide) hp | rfl | exact ⟨rfl, rfl⟩ | exact ⟨rfl, rfl, rfl, rfl, rfl⟩)
    | dsimp only

theorem stkPowerOff_only (s : State) : Only [.shots, .stk] s (stkPowerOff s) := by
  unfold stkPowerOff
  dsimp only
  repeat' first
    | with_reducible exact Only.refl _ _
    | ((with_reducible apply Only.next (discardStacks_only _ _)); · decide)
    | with_reducible apply Only.ite
    | ((with_reducible apply Only.mkThen)
       · intro p hp; cases p <;> first | exact absurd (by decide) hp | rfl | exact ⟨rfl, rfl⟩ | exact ⟨rfl, rfl, rfl, rfl, rfl⟩)

theorem stkPowerOn_only (s : State) : Only [.stk] s (stkPowerOn s) := by
  unfold stkPowerOn
  repeat' first
    | with_reducible exact Only.refl _ _
    | with_reducible apply Only.ite
    | split
    | ((with_reducible apply Only.mkThen)
       · intro p hp; cases p <;> first | exact absurd (by decide) hp | rfl | exact ⟨rfl, rfl⟩ | exact ⟨rfl, rfl, rfl, rfl, rfl⟩)
    | dsimp only

theorem stkBoundary_only (r0 : Rd) (s : State) : Only [.shots, .stk, .link, .arch] s (stkBoundary r0 s) := by
  unfold stkBoundary
  dsimp only
  repeat' first
    | with_reducible exact Only.refl _ _
    | ((with_reducible apply Only.next (spillSync_only _)); · decide)
    | ((with_reducible apply Only.next (startSpill_only _ _ _ _ _ _ _ _ _)); · decide)
    | ((with_reducible apply Only.next (discardStacks_only _ _)); · decide)
    | with_reducible apply Only.ite
    | ((with_reducible apply Only.mkThen)
       · intro p hp; cases p <;> first | exact absurd (by decide) hp | rfl | exact ⟨rfl, rfl⟩ | exact ⟨rfl, rfl, rfl, rfl, rfl⟩)

theorem takeStacked_only (c i : Nat) (s : State) : Only [.shots, .stk] s (takeStacked c i s).2 := by
  unfold takeStacked
  repeat' first
    | with_reducible exact Only.refl _ _
    | ((with_reducible apply Only.next (discardStacks_only _ _)); · first | decide | exact fun _ h => h)
    | split
    | dsimp only
    | ((with_reducible apply Only.mkThen); · intro p hp; cases p <;> first | exact absurd (by decide) hp | rfl | exact ⟨rfl, rfl⟩ | exact ⟨rfl, rfl, rfl, rfl, rfl⟩)

/-! ### Engines -/

theorem noteFull_only (s : State) : Only [.eng] s (noteFull s) := by
  unfold noteFull
  repeat' first
    | with_reducible exact Only.refl _ _
    | with_reducible apply Only.ite
    | split
    | ((with_reducible apply Only.mkThen)
       · intro p hp; cases p <;> first | exact absurd (by decide) hp | rfl | exact ⟨rfl, rfl⟩ | exact ⟨rfl, rfl, rfl, rfl, rfl⟩)
    | dsimp only

theorem putRawRec_only (sid : Nat) (w : Win) (s : State) : Only [.free, .eng] s (putRawRec sid w s) := by
  unfold putRawRec
  dsimp only
  repeat' first
    | with_reducible exact Only.refl _ _
    | ((with_reducible apply Only.next (takeFree_only _ _)); · decide)
    | ((with_reducible apply Only.next (noteFull_only _)); · decide)
    | with_reducible apply Only.ite
    | split
    | ((with_reducible apply Only.mkThen)
       · intro p hp; cases p <;> first | exact absurd (by decide) hp | rfl | exact ⟨rfl, rfl⟩ | exact ⟨rfl, rfl, rfl, rfl, rfl⟩)
    | dsimp only

theorem noteLoss_only (c : Nat) (sid : Option Nat) (s : State) : Only [.shots, .eng] s (noteLoss c sid s) := by
  unfold noteLoss
  dsimp only
  repeat' first
    | with_reducible exact Only.refl _ _
    | ((with_reducible apply Only.next (modEngCh_only _ _ _)); · decide)
    | ((with_reducible apply Only.next (modShot_only _ _ _)); · decide)
    | with_reducible apply Only.ite
    | split
    | ((with_reducible apply Only.mkThen)
       · intro p hp; cases p <;> first | exact absurd (by decide) hp | rfl | exact ⟨rfl, rfl⟩ | exact ⟨rfl, rfl, rfl, rfl, rfl⟩)
    | dsimp only

theorem countDone_only (sid : Option Nat) (s : State) : Only [.shots] s (countDone sid s) := by
  unfold countDone
  repeat' first
    | with_reducible exact Only.refl _ _
    | ((with_reducible apply Only.next (modShot_only _ _ _)); · decide)
    | with_reducible apply Only.ite
    | split
    | ((with_reducible apply Only.mkThen)
       · intro p hp; cases p <;> first | exact absurd (by decide) hp | rfl | exact ⟨rfl, rfl⟩ | exact ⟨rfl, rfl, rfl, rfl, rfl⟩)
    | dsimp only

theorem countShed_only (sid : Option Nat) (s : State) : Only [.shots] s (countShed sid s) := by
  unfold countShed
  repeat' first
    | with_reducible exact Only.refl _ _
    | ((with_reducible apply Only.next (modShot_only _ _ _)); · decide)
    | with_reducible apply Only.ite
    | split
    | ((with_reducible apply Only.mkThen)
       · intro p hp; cases p <;> first | exact absurd (by decide) hp | rfl | exact ⟨rfl, rfl⟩ | exact ⟨rfl, rfl, rfl, rfl, rfl⟩)
    | dsimp only

theorem hdrShed_only (s : State) : Only [.counts, .items] s (hdrShed s) := by
  unfold hdrShed
  dsimp only
  repeat' first
    | with_reducible exact Only.refl _ _
    | ((with_reducible apply Only.next (modHdr_only _ _)); · decide)
    | ((with_reducible apply Only.next (putItem_only _ _ _)); · decide)
    | with_reducible apply Only.ite
    | ((with_reducible apply Only.mkThen)
       · intro p hp; cases p <;> first | exact absurd (by decide) hp | rfl | exact ⟨rfl, rfl⟩ | exact ⟨rfl, rfl, rfl, rfl, rfl⟩)

theorem hdrLost_only (s : State) : Only [.counts] s (hdrLost s) := by
  unfold hdrLost
  repeat' first
    | with_reducible exact Only.refl _ _
    | ((with_reducible apply Only.next (modHdr_only _ _)); · decide)
    | with_reducible apply Only.ite
    | ((with_reducible apply Only.mkThen)
       · intro p hp; cases p <;> first | exact absurd (by decide) hp | rfl | exact ⟨rfl, rfl⟩ | exact ⟨rfl, rfl, rfl, rfl, rfl⟩)

theorem shedTask_only (t : Task) (s : State) : Only [.free, .shots, .counts, .eng, .items] s (shedTask t s) := by
  unfold shedTask
  dsimp only
  repeat' first
    | with_reducible exact Only.refl _ _
    | ((with_reducible apply Only.next (noteLoss_only _ _ _)); · decide)
    | ((with_reducible apply Only.next (countShed_only _ _)); · decide)
    | ((with_reducible apply Only.next (hdrShed_only _)); · decide)
    | ((with_reducible apply Only.next (modEngCh_only _ _ _)); · decide)
    | ((with_reducible apply Only.next (putRawRec_only _ _ _)); · decide)
    | with_reducible apply Only.ite
    | split
    | ((with_reducible apply Only.mkThen)
       · intro p hp; cases p <;> first | exact absurd (by decide) hp | rfl | exact ⟨rfl, rfl⟩ | exact ⟨rfl, rfl, rfl, rfl, rfl⟩)
    | dsimp only

theorem pushTask_only (k : Nat) (t : Task) (s : State) : Only [.eng] s (pushTask k t s) := by
  unfold pushTask
  repeat' first
    | with_reducible exact Only.refl _ _
    | ((with_reducible apply Only.next (modEngine_only _ _ _)); · decide)
    | with_reducible apply Only.ite
    | ((with_reducible apply Only.mkThen)
       · intro p hp; cases p <;> first | exact absurd (by decide) hp | rfl | exact ⟨rfl, rfl⟩ | exact ⟨rfl, rfl, rfl, rfl, rfl⟩)

theorem eraseTask_only (k : Nat) (t : Task) (s : State) : Only [.eng] s (eraseTask k t s) := by
  unfold eraseTask
  repeat' first
    | with_reducible exact Only.refl _ _
    | ((with_reducible apply Only.next (modEngine_only _ _ _)); · decide)
    | with_reducible apply Only.ite
    | ((with_reducible apply Only.mkThen)
       · intro p hp; cases p <;> first | exact absurd (by decide) hp | rfl | exact ⟨rfl, rfl⟩ | exact ⟨rfl, rfl, rfl, rfl, rfl⟩)

theorem enterHome_only (t : Task) (s : State) : Only [.free, .shots, .counts, .eng, .items] s (enterHome t s) := by
  unfold enterHome
  dsimp only
  repeat' first
    | with_reducible exact Only.refl _ _
    | ((with_reducible apply Only.next (countShed_only _ _)); · decide)
    | ((with_reducible apply Only.next (hdrShed_only _)); · decide)
    | ((with_reducible apply Only.next (modShot_only _ _ _)); · decide)
    | ((with_reducible apply Only.next (shedTask_only _ _)); · decide)
    | ((with_reducible apply Only.next (pushTask_only _ _ _)); · decide)
    | ((with_reducible apply Only.next (eraseTask_only _ _ _)); · decide)
    | with_reducible apply Only.ite
    | split
    | ((with_reducible apply Only.mkThen)
       · intro p hp; cases p <;> first | exact absurd (by decide) hp | rfl | exact ⟨rfl, rfl⟩ | exact ⟨rfl, rfl, rfl, rfl, rfl⟩)
    | dsimp only

theorem lateWindow_only (c : Nat) (sid : Option Nat) (s : State) : Only [.shots, .counts, .eng] s (lateWindow c sid s) := by
  unfold lateWindow
  repeat' first
    | with_reducible exact Only.refl _ _
    | ((with_reducible apply Only.next (noteLoss_only _ _ _)); · decide)
    | ((with_reducible apply Only.next (hdrLost_only _)); · decide)
    | ((with_reducible apply Only.next (modEngCh_only _ _ _)); · decide)
    | with_reducible apply Only.ite
    | ((with_reducible apply Only.mkThen)
       · intro p hp; cases p <;> first | exact absurd (by decide) hp | rfl | exact ⟨rfl, rfl⟩ | exact ⟨rfl, rfl, rfl, rfl, rfl⟩)

theorem setS_only (sid : Nat) (v : Int) (s : State) : Only [.shots, .stk] s (setS sid v s) := by
  unfold setS
  dsimp only
  repeat' first
    | with_reducible exact Only.refl _ _
    | ((with_reducible apply Only.next (modShot_only _ _ _)); · decide)
    | with_reducible apply Only.ite
    | ((with_reducible apply Only.mkThen)
       · intro p hp; cases p <;> first | exact absurd (by decide) hp | rfl | exact ⟨rfl, rfl⟩ | exact ⟨rfl, rfl, rfl, rfl, rfl⟩)

theorem startMissed_only (sid : Nat) (s : State) : Only [.shots, .emits, .stk] s (startMissed sid s) := by
  unfold startMissed
  repeat' first
    | with_reducible exact Only.refl _ _
    | ((with_reducible apply Only.next (modShot_only _ _ _)); · decide)
    | ((with_reducible apply Only.next (modEmit_only _ _ _)); · decide)
    | ((with_reducible apply Only.next (setS_only _ _ _)); · decide)
    | with_reducible apply Only.ite
    | split
    | ((with_reducible apply Only.mkThen)
       · intro p hp; cases p <;> first | exact absurd (by decide) hp | rfl | exact ⟨rfl, rfl⟩ | exact ⟨rfl, rfl, rfl, rfl, rfl⟩)
    | dsimp only

theorem startLost_only (w : Win) (s : State) : Only [.shots, .emits, .stk] s (startLost w s) := by
  unfold startLost
  repeat' first
    | with_reducible exact Only.refl _ _
    | ((with_reducible apply Only.next (startMissed_only _ _)); · decide)
    | with_reducible apply Only.each
    | intro _ _
    | with_reducible apply Only.ite
    | ((with_reducible apply Only.mkThen)
       · intro p hp; cases p <;> first | exact absurd (by decide) hp | rfl | exact ⟨rfl, rfl⟩ | exact ⟨rfl, rfl, rfl, rfl, rfl⟩)

theorem startTaskLost_only (t : Task) (s : State) : Only [.shots, .emits, .stk] s (startTaskLost t s) := by
  unfold startTaskLost
  repeat' first
    | with_reducible exact Only.refl _ _
    | ((with_reducible apply Only.next (startLost_only _ _)); · decide)
    | with_reducible apply Only.ite
    | split
    | ((with_reducible apply Only.mkThen)
       · intro p hp; cases p <;> first | exact absurd (by decide) hp | rfl | exact ⟨rfl, rfl⟩ | exact ⟨rfl, rfl, rfl, rfl, rfl⟩)
    | dsimp only

theorem retireEngine_only (k : Nat) (s : State) : Only [.free, .shots, .emits, .counts, .eng, .stk, .items] s (retireEngine k s) := by
  unfold retireEngine
  dsimp only
  repeat' first
    | with_reducible exact Only.refl _ _
    | ((with_reducible apply Only.next (modEngine_only _ _ _)); · decide)
    | ((with_reducible apply Only.next (startTaskLost_only _ _)); · decide)
    | ((with_reducible apply Only.next (shedTask_only _ _)); · decide)
    | with_reducible apply Only.each
    | intro _ _
    | with_reducible apply Only.ite
    | ((with_reducible apply Only.mkThen)
       · intro p hp; cases p <;> first | exact absurd (by decide) hp | rfl | exact ⟨rfl, rfl⟩ | exact ⟨rfl, rfl, rfl, rfl, rfl⟩)

theorem startFor_only (r : Rd) (e : Nat) (w : Win) (x3 y : Vals) (x : Shot) (s : State) : Only [.shots, .emits, .stk] s (startFor r e w x3 y x s) := by
  unfold startFor
  dsimp only
  repeat' first
    | with_reducible exact Only.refl _ _
    | ((with_reducible apply Only.next (startMissed_only _ _)); · decide)
    | ((with_reducible apply Only.next (setS_only _ _ _)); · decide)
    | ((with_reducible apply Only.next (modEmit_only _ _ _)); · decide)
    | ((with_reducible apply Only.next (modShot_only _ _ _)); · decide)
    | with_reducible apply Only.ite
    | split
    | ((with_reducible apply Only.mkThen)
       · intro p hp; cases p <;> first | exact absurd (by decide) hp | rfl | exact ⟨rfl, rfl⟩ | exact ⟨rfl, rfl, rfl, rfl, rfl⟩)
    | dsimp only

theorem doStart_only (w : Win) (ep : Nat) (s : State) : Only [.free, .shots, .emits, .eng, .stk] s (doStart w ep s) := by
  unfold doStart
  dsimp only
  repeat' first
    | with_reducible exact Only.refl _ _
    | ((with_reducible apply Only.next (startFor_only _ _ _ _ _ _ _)); · decide)
    | ((with_reducible apply Only.next (putRawRec_only _ _ _)); · decide)
    | with_reducible apply Only.each
    | intro _ _
    | with_reducible apply Only.ite
    | split
    | ((with_reducible apply Only.mkThen)
       · intro p hp; cases p <;> first | exact absurd (by decide) hp | rfl | exact ⟨rfl, rfl⟩ | exact ⟨rfl, rfl, rfl, rfl, rfl⟩)
    | dsimp only

theorem handComp_only (x : Shot) (w : Win) (s : State) : Only [.shots, .stk] s (handComp x w s) := by
  unfold handComp
  dsimp only
  repeat' first
    | with_reducible exact Only.refl _ _
    | ((with_reducible apply Only.next (takeComp_only _ _ _ _ _)); · decide)
    | with_reducible apply Only.ite
    | split
    | ((with_reducible apply Only.mkThen)
       · intro p hp; cases p <;> first | exact absurd (by decide) hp | rfl | exact ⟨rfl, rfl⟩ | exact ⟨rfl, rfl, rfl, rfl, rfl⟩)
    | dsimp only

theorem handReturn_only (w : Win) (sid : Nat) (s : State) : Only [.free, .shots, .counts, .eng, .stk, .items] s (handReturn w sid s) := by
  unfold handReturn
  dsimp only
  repeat' first
    | with_reducible exact Only.refl _ _
    | ((with_reducible apply Only.next (lateWindow_only _ _ _)); · decide)
    | ((with_reducible apply Only.next (handComp_only _ _ _)); · decide)
    | ((with_reducible apply Only.next (putRawRec_only _ _ _)); · decide)
    | ((with_reducible apply Only.next (enterHome_only _ _)); · decide)
    | ((with_reducible apply Only.next (modShot_only _ _ _)); · decide)
    | with_reducible apply Only.ite
    | split
    | ((with_reducible apply Only.mkThen)
       · intro p hp; cases p <;> first | exact absurd (by decide) hp | rfl | exact ⟨rfl, rfl⟩ | exact ⟨rfl, rfl, rfl, rfl, rfl⟩)
    | dsimp only

theorem handCal_only (w : Win) (s : State) : Only [.free, .shots, .counts, .eng, .items] s (handCal w s) := by
  unfold handCal
  repeat' first
    | with_reducible exact Only.refl _ _
    | ((with_reducible apply Only.next (lateWindow_only _ _ _)); · decide)
    | ((with_reducible apply Only.next (enterHome_only _ _)); · decide)
    | ((with_reducible apply Only.next (modShot_only _ _ _)); · decide)
    | with_reducible apply Only.ite
    | split
    | ((with_reducible apply Only.mkThen)
       · intro p hp; cases p <;> first | exact absurd (by decide) hp | rfl | exact ⟨rfl, rfl⟩ | exact ⟨rfl, rfl, rfl, rfl, rfl⟩)
    | dsimp only

theorem handStart_only (w : Win) (s : State) : Only [.shots, .emits, .eng, .stk] s (handStart w s) := by
  unfold handStart
  repeat' first
    | with_reducible exact Only.refl _ _
    | ((with_reducible apply Only.next (startLost_only _ _)); · decide)
    | with_reducible apply Only.ite
    | ((with_reducible apply Only.mkThen)
       · intro p hp; cases p <;> first | exact absurd (by decide) hp | rfl | exact ⟨rfl, rfl⟩ | exact ⟨rfl, rfl, rfl, rfl, rfl⟩)

theorem putEchoes_only (x : Shot) (l : List Echo) (s : State) : Only [.free, .eng, .stk, .link, .arch, .upd] s (putEchoes x l s) := by
  unfold putEchoes
  repeat' first
    | with_reducible exact Only.refl _ _
    | ((with_reducible apply Only.next (countEcho_only _ _ _ _)); · decide)
    | with_reducible apply Only.each
    | intro _ _
    | with_reducible apply Only.ite
    | ((with_reducible apply Only.mkThen)
       · intro p hp; cases p <;> first | exact absurd (by decide) hp | rfl | exact ⟨rfl, rfl⟩ | exact ⟨rfl, rfl, rfl, rfl, rfl⟩)

theorem doWin_only (w : Win) (sid ep : Nat) (s : State) : Only [.free, .shots, .eng, .stk, .cal, .link, .arch, .upd] s (doWin w sid ep s) := by
  unfold doWin
  dsimp only
  repeat' first
    | with_reducible exact Only.refl _ _
    | ((with_reducible apply Only.next (putRawRec_only _ _ _)); · decide)
    | ((with_reducible apply Only.next (modShot_only _ _ _)); · decide)
    | ((with_reducible apply Only.next (putEchoes_only _ _ _)); · decide)
    | ((with_reducible apply Only.next (countDone_only _ _)); · decide)
    | with_reducible apply Only.ite
    | split
    | ((with_reducible apply Only.mkThen)
       · intro p hp; cases p <;> first | exact absurd (by decide) hp | rfl | exact ⟨rfl, rfl⟩ | exact ⟨rfl, rfl, rfl, rfl, rfl⟩)
    | dsimp only

theorem doStk_only (w : StkWin) (ep : Nat) (s : State) : Only [.free, .shots, .eng, .stk, .link, .arch, .upd] s (doStk w ep s) := by
  unfold doStk
  dsimp only
  repeat' first
    | with_reducible exact Only.refl _ _
    | ((with_reducible apply Only.next (countDone_only _ _)); · decide)
    | ((with_reducible apply Only.next (putEchoes_only _ _ _)); · decide)
    | with_reducible apply Only.ite
    | split
    | ((with_reducible apply Only.mkThen)
       · intro p hp; cases p <;> first | exact absurd (by decide) hp | rfl | exact ⟨rfl, rfl⟩ | exact ⟨rfl, rfl, rfl, rfl, rfl⟩)
    | dsimp only

theorem calPhaseData_only (r : Rd) (ep : Nat) (w : Win) (s : State) : Only [.cal] s (calPhaseData r ep w s) := by
  unfold calPhaseData
  dsimp only
  repeat' first
    | with_reducible exact Only.refl _ _
    | ((with_reducible apply Only.next (gainAdd_only _ _ _ _)); · decide)
    | ((with_reducible apply Only.next (zeroAdd_only _ _ _ _)); · decide)
    | with_reducible apply Only.ite
    | split
    | ((with_reducible apply Only.mkThen)
       · intro p hp; cases p <;> first | exact absurd (by decide) hp | rfl | exact ⟨rfl, rfl⟩ | exact ⟨rfl, rfl, rfl, rfl, rfl⟩)
    | dsimp only

theorem doCal_only (w : Win) (ep : Nat) (s : State) : Only [.free, .shots, .eng, .greys, .cal] s (doCal w ep s) := by
  unfold doCal
  dsimp only
  repeat' first
    | with_reducible exact Only.refl _ _
    | ((with_reducible apply Only.next (calPhaseData_only _ _ _ _)); · decide)
    | ((with_reducible apply Only.next (greyTake_only _ _ _ _ _ _)); · decide)
    | ((with_reducible apply Only.next (putRawRec_only _ _ _)); · decide)
    | ((with_reducible apply Only.next (countDone_only _ _)); · decide)
    | with_reducible apply Only.ite
    | split
    | ((with_reducible apply Only.mkThen)
       · intro p hp; cases p <;> first | exact absurd (by decide) hp | rfl | exact ⟨rfl, rfl⟩ | exact ⟨rfl, rfl, rfl, rfl, rfl⟩)
    | dsimp only

theorem doFin_only (sid c ep : Nat) (s : State) : Only [.free, .shots, .eng, .stk, .link, .arch, .upd] s (doFin sid c ep s) := by
  unfold doFin
  dsimp only
  repeat' first
    | with_reducible exact Only.refl _ _
    | ((with_reducible apply Only.next (modShot_only _ _ _)); · decide)
    | ((with_reducible apply Only.next (putEchoes_only _ _ _)); · decide)
    | with_reducible apply Only.ite
    | split
    | ((with_reducible apply Only.mkThen)
       · intro p hp; cases p <;> first | exact absurd (by decide) hp | rfl | exact ⟨rfl, rfl⟩ | exact ⟨rfl, rfl, rfl, rfl, rfl⟩)
    | dsimp only

theorem doTask_only (t : Task) (s : State) : Only [.free, .shots, .emits, .eng, .greys, .stk, .cal, .link, .arch, .upd] s (doTask t s) := by
  unfold doTask
  repeat' first
    | with_reducible exact Only.refl _ _
    | ((with_reducible apply Only.next (doWin_only _ _ _ _)); · decide)
    | ((with_reducible apply Only.next (doCal_only _ _ _)); · decide)
    | ((with_reducible apply Only.next (doStk_only _ _ _)); · decide)
    | ((with_reducible apply Only.next (doStart_only _ _ _)); · decide)
    | ((with_reducible apply Only.next (doFin_only _ _ _ _)); · decide)
    | with_reducible apply Only.ite
    | split
    | ((with_reducible apply Only.mkThen)
       · intro p hp; cases p <;> first | exact absurd (by decide) hp | rfl | exact ⟨rfl, rfl⟩ | exact ⟨rfl, rfl, rfl, rfl, rfl⟩)
    | dsimp only

theorem endTask_only (k : Nat) (p : Task → Bool) (s : State) : Only [.free, .shots, .emits, .eng, .greys, .stk, .cal, .link, .arch, .upd] s (endTask k p s) := by
  unfold endTask
  repeat' first
    | with_reducible exact Only.refl _ _
    | ((with_reducible apply Only.next (noteFull_only _)); · decide)
    | ((with_reducible apply Only.next (doTask_only _ _)); · decide)
    | ((with_reducible apply Only.next (modEngine_only _ _ _)); · decide)
    | with_reducible apply Only.ite
    | split
    | ((with_reducible apply Only.mkThen)
       · intro p hp; cases p <;> first | exact absurd (by decide) hp | rfl | exact ⟨rfl, rfl⟩ | exact ⟨rfl, rfl, rfl, rfl, rfl⟩)
    | dsimp only

theorem dropEcc_only (t : Task) (s : State) : Only [.shots, .emits, .counts, .eng, .stk] s (dropEcc t s) := by
  unfold dropEcc
  dsimp only
  repeat' first
    | with_reducible exact Only.refl _ _
    | ((with_reducible apply Only.next (startLost_only _ _)); · decide)
    | ((with_reducible apply Only.next (modShot_only _ _ _)); · decide)
    | ((with_reducible apply Only.next (noteLoss_only _ _ _)); · decide)
    | ((with_reducible apply Only.next (hdrLost_only _)); · decide)
    | ((with_reducible apply Only.next (modEngCh_only _ _ _)); · decide)
    | ((with_reducible apply Only.next (countShed_only _ _)); · decide)
    | with_reducible apply Only.ite
    | split
    | ((with_reducible apply Only.mkThen)
       · intro p hp; cases p <;> first | exact absurd (by decide) hp | rfl | exact ⟨rfl, rfl⟩ | exact ⟨rfl, rfl, rfl, rfl, rfl⟩)
    | dsimp only

theorem dropCur_only (k : Nat) (s : State) : Only [.shots, .emits, .counts, .eng, .stk] s (dropCur k s) := by
  unfold dropCur
  repeat' first
    | with_reducible exact Only.refl _ _
    | ((with_reducible apply Only.next (dropEcc_only _ _)); · decide)
    | ((with_reducible apply Only.next (modEngine_only _ _ _)); · decide)
    | with_reducible apply Only.ite
    | split
    | ((with_reducible apply Only.mkThen)
       · intro p hp; cases p <;> first | exact absurd (by decide) hp | rfl | exact ⟨rfl, rfl⟩ | exact ⟨rfl, rfl, rfl, rfl, rfl⟩)
    | dsimp only

theorem versSwap_only (s : State) : Only [.upd] s (versSwap s) := by
  unfold versSwap
  repeat' first
    | with_reducible exact Only.refl _ _
    | with_reducible apply Only.ite
    | split
    | ((with_reducible apply Only.mkThen)
       · intro p hp; cases p <;> first | exact absurd (by decide) hp | rfl | exact ⟨rfl, rfl⟩ | exact ⟨rfl, rfl, rfl, rfl, rfl⟩)
    | dsimp only

theorem microSwap_only (s : State) : Only [.eng, .upd] s (microSwap s) := by
  unfold microSwap
  repeat' first
    | with_reducible exact Only.refl _ _
    | ((with_reducible apply Only.next (versSwap_only _)); · decide)
    | with_reducible apply Only.ite
    | ((with_reducible apply Only.mkThen)
       · intro p hp; cases p <;> first | exact absurd (by decide) hp | rfl | exact ⟨rfl, rfl⟩ | exact ⟨rfl, rfl, rfl, rfl, rfl⟩)

/-! ### Reorder -/

theorem markLate_only (sid : Nat) (s : State) : Only [.shots] s (markLate sid s) := by
  unfold markLate
  repeat' first
    | with_reducible exact Only.refl _ _
    | ((with_reducible apply Only.next (modShot_only _ _ _)); · decide)
    | with_reducible apply Only.each
    | intro _ _
    | with_reducible apply Only.ite
    | ((with_reducible apply Only.mkThen)
       · intro p hp; cases p <;> first | exact absurd (by decide) hp | rfl | exact ⟨rfl, rfl⟩ | exact ⟨rfl, rfl, rfl, rfl, rfl⟩)

theorem lateTasks_only (sid : Nat) (s : State) : Only [.shots, .counts, .eng, .stk] s (lateTasks sid s) := by
  unfold lateTasks
  dsimp only
  repeat' first
    | with_reducible exact Only.refl _ _
    | ((with_reducible apply Only.next (lateWindow_only _ _ _)); · decide)
    | with_reducible apply Only.each
    | intro _ _
    | with_reducible apply Only.ite
    | ((with_reducible apply Only.mkThen)
       · intro p hp; cases p <;> first | exact absurd (by decide) hp | rfl | exact ⟨rfl, rfl⟩ | exact ⟨rfl, rfl, rfl, rfl, rfl⟩)

theorem purge_only (s : State) : Only [.cfg, .shots, .eng, .cal] s (purge s) := by
  unfold purge
  dsimp only
  repeat' first
    | with_reducible exact Only.refl _ _
    | with_reducible apply Only.ite
    | ((with_reducible apply Only.mkThen)
       · intro p hp; cases p <;> first | exact absurd (by decide) hp | rfl | exact ⟨rfl, rfl⟩ | exact ⟨rfl, rfl, rfl, rfl, rfl⟩)

theorem releaseChannel_only (r : Rd) (x : Shot) (c : Nat) (l : List Echo) (s : State) : Only [.free, .counts, .eng, .stk, .link, .arch, .upd] s (releaseChannel r x c l s) := by
  unfold releaseChannel
  dsimp only
  repeat' first
    | with_reducible exact Only.refl _ _
    | ((with_reducible apply Only.next (countEcho_only _ _ _ _)); · decide)
    | ((with_reducible apply Only.next (modEngCh_only _ _ _)); · decide)
    | ((with_reducible apply Only.next (modHdr_only _ _)); · decide)
    | ((with_reducible apply Only.next (putEcho_only _ _)); · decide)
    | with_reducible apply Only.each
    | intro _ _
    | with_reducible apply Only.ite
    | ((with_reducible apply Only.mkThen)
       · intro p hp; cases p <;> first | exact absurd (by decide) hp | rfl | exact ⟨rfl, rfl⟩ | exact ⟨rfl, rfl, rfl, rfl, rfl⟩)

theorem releaseGroup_only (sid : Nat) (s : State) : Only [.free, .cfg, .shots, .emits, .counts, .eng, .stk, .cal, .items, .link, .arch, .upd] s (releaseGroup sid s) := by
  unfold releaseGroup
  dsimp only
  repeat' first
    | with_reducible exact Only.refl _ _
    | ((with_reducible apply Only.next (markLate_only _ _)); · decide)
    | ((with_reducible apply Only.next (startMissed_only _ _)); · decide)
    | ((with_reducible apply Only.next (releaseChannel_only _ _ _ _ _)); · decide)
    | ((with_reducible apply Only.next (putRaw_only _ _)); · decide)
    | ((with_reducible apply Only.next (putItem_only _ _ _)); · decide)
    | ((with_reducible apply Only.next (noteFull_only _)); · decide)
    | ((with_reducible apply Only.next (purge_only _)); · decide)
    | ((with_reducible apply Only.next (lateTasks_only _ _)); · decide)
    | ((with_reducible apply Only.next (modShot_only _ _ _)); · decide)
    | with_reducible apply Only.each
    | intro _ _
    | with_reducible apply Only.ite
    | split
    | ((with_reducible apply Only.mkThen)
       · intro p hp; cases p <;> first | exact absurd (by decide) hp | rfl | exact ⟨rfl, rfl⟩ | exact ⟨rfl, rfl, rfl, rfl, rfl⟩)
    | dsimp only

/-! ### Fire -/

theorem posAnew_only (s : State) : Only [.fire] s (posAnew s) := by
  unfold posAnew
  repeat' first
    | with_reducible exact Only.refl _ _
    | with_reducible apply Only.ite
    | ((with_reducible apply Only.mkThen)
       · intro p hp; cases p <;> first | exact absurd (by decide) hp | rfl | exact ⟨rfl, rfl⟩ | exact ⟨rfl, rfl, rfl, rfl, rfl⟩)

theorem dwellSwap_only (s : State) : Only [.fire] s (dwellSwap s) := by
  unfold dwellSwap
  repeat' first
    | with_reducible exact Only.refl _ _
    | with_reducible apply Only.ite
    | ((with_reducible apply Only.mkThen)
       · intro p hp; cases p <;> first | exact absurd (by decide) hp | rfl | exact ⟨rfl, rfl⟩ | exact ⟨rfl, rfl, rfl, rfl, rfl⟩)

theorem gridSwap_only (r0 : Rd) (s : State) : Only [.emits, .fire] s (gridSwap r0 s) := by
  unfold gridSwap
  dsimp only
  repeat' first
    | with_reducible exact Only.refl _ _
    | ((with_reducible apply Only.next (modEmit_only _ _ _)); · decide)
    | ((with_reducible apply Only.next (posAnew_only _)); · decide)
    | with_reducible apply Only.each
    | intro _ _
    | with_reducible apply Only.ite
    | ((with_reducible apply Only.mkThen)
       · intro p hp; cases p <;> first | exact absurd (by decide) hp | rfl | exact ⟨rfl, rfl⟩ | exact ⟨rfl, rfl, rfl, rfl, rfl⟩)

theorem greyParks_only (r : Rd) (x : Shot) (s : State) : Only [.samp, .greys] s (greyParks r x s) := by
  unfold greyParks
  dsimp only
  repeat' first
    | with_reducible exact Only.refl _ _
    | ((with_reducible apply Only.next (modGrey_only _ _ _)); · decide)
    | with_reducible apply Only.each
    | intro _ _
    | with_reducible apply Only.ite
    | ((with_reducible apply Only.mkThen)
       · intro p hp; cases p <;> first | exact absurd (by decide) hp | rfl | exact ⟨rfl, rfl⟩ | exact ⟨rfl, rfl, rfl, rfl, rfl⟩)

theorem sendHeader_only (h : HdrPend) (s : State) : Only [.free, .fire, .link, .arch] s (sendHeader h s) := by
  unfold sendHeader
  dsimp only
  repeat' first
    | with_reducible exact Only.refl _ _
    | ((with_reducible apply Only.next (putHeader_only _ _)); · decide)
    | ((with_reducible apply Only.next (takeFree_only _ _)); · decide)
    | with_reducible apply Only.ite
    | split
    | ((with_reducible apply Only.mkThen)
       · intro p hp; cases p <;> first | exact absurd (by decide) hp | rfl | exact ⟨rfl, rfl⟩ | exact ⟨rfl, rfl, rfl, rfl, rfl⟩)
    | dsimp only

theorem completeHeader_only (nom : Nat) (s : State) : Only [.free, .fire, .link, .arch] s (completeHeader nom s) := by
  unfold completeHeader
  dsimp only
  repeat' first
    | with_reducible exact Only.refl _ _
    | ((with_reducible apply Only.next (sendHeader_only _ _)); · decide)
    | with_reducible apply Only.ite
    | split
    | ((with_reducible apply Only.mkThen)
       · intro p hp; cases p <;> first | exact absurd (by decide) hp | rfl | exact ⟨rfl, rfl⟩ | exact ⟨rfl, rfl, rfl, rfl, rfl⟩)
    | dsimp only

theorem countSkip_only (s : State) : Only [.counts, .fire] s (countSkip s) := by
  unfold countSkip
  repeat' first
    | with_reducible exact Only.refl _ _
    | ((with_reducible apply Only.next (modHdr_only _ _)); · decide)
    | with_reducible apply Only.ite
    | split
    | ((with_reducible apply Only.mkThen)
       · intro p hp; cases p <;> first | exact absurd (by decide) hp | rfl | exact ⟨rfl, rfl⟩ | exact ⟨rfl, rfl, rfl, rfl, rfl⟩)
    | dsimp only

theorem countNominal_only (e nom l : Nat) (s : State) : Only [.free, .emits, .counts, .fire, .items, .link, .arch] s (countNominal e nom l s) := by
  unfold countNominal
  dsimp only
  repeat' first
    | with_reducible exact Only.refl _ _
    | ((with_reducible apply Only.next (putItem_only _ _ _)); · decide)
    | ((with_reducible apply Only.next (completeHeader_only _ _)); · decide)
    | ((with_reducible apply Only.next (modHdr_only _ _)); · decide)
    | ((with_reducible apply Only.next (modEmit_only _ _ _)); · decide)
    | with_reducible apply Only.ite
    | ((with_reducible apply Only.mkThen)
       · intro p hp; cases p <;> first | exact absurd (by decide) hp | rfl | exact ⟨rfl, rfl⟩ | exact ⟨rfl, rfl, rfl, rfl, rfl⟩)

theorem countWithheld_only (e : Nat) (s : State) : Only [.emits] s (countWithheld e s) := by
  unfold countWithheld
  repeat' first
    | with_reducible exact Only.refl _ _
    | ((with_reducible apply Only.next (modEmit_only _ _ _)); · decide)
    | with_reducible apply Only.ite
    | ((with_reducible apply Only.mkThen)
       · intro p hp; cases p <;> first | exact absurd (by decide) hp | rfl | exact ⟨rfl, rfl⟩ | exact ⟨rfl, rfl, rfl, rfl, rfl⟩)

theorem hdrWithheld_only (s : State) : Only [.counts] s (hdrWithheld s) := by
  unfold hdrWithheld
  repeat' first
    | with_reducible exact Only.refl _ _
    | ((with_reducible apply Only.next (modHdr_only _ _)); · decide)
    | with_reducible apply Only.ite
    | ((with_reducible apply Only.mkThen)
       · intro p hp; cases p <;> first | exact absurd (by decide) hp | rfl | exact ⟨rfl, rfl⟩ | exact ⟨rfl, rfl, rfl, rfl, rfl⟩)

theorem launch_only (r : Rd) (first : Bool) (x : Shot) (s : State) : Only [.shots, .fire, .samp, .greys, .stk, .cal, .hk] s (launch r first x s) := by
  unfold launch
  dsimp only
  repeat' first
    | with_reducible exact Only.refl _ _
    | ((with_reducible apply Only.next (claimStacks_only _ _ _)); · decide)
    | ((with_reducible apply Only.next (greyParks_only _ _ _)); · decide)
    | ((with_reducible apply Only.next (zeroShot_only _ _ _)); · decide)
    | ((with_reducible apply Only.next (calShot_only _ _ _ _)); · decide)
    | with_reducible apply Only.each
    | intro _ _
    | with_reducible apply Only.ite
    | ((with_reducible apply Only.mkThen)
       · intro p hp; cases p <;> first | exact absurd (by decide) hp | rfl | exact ⟨rfl, rfl⟩ | exact ⟨rfl, rfl, rfl, rfl, rfl⟩)

theorem dwellTest_only (r : Rd) (first : Bool) (x : Shot) (s : State) : Only [.free, .devState, .resume, .irq, .sys, .inhibit, .shots, .emits, .counts, .fire, .fronts, .samp, .greys, .stk, .cal, .hk, .axA, .axB, .replies, .flash, .casc, .log, .fltQueue] s (dwellTest r first x s) := by
  unfold dwellTest
  dsimp only
  repeat' first
    | with_reducible exact Only.refl _ _
    | ((with_reducible apply Only.next (hdrWithheld_only _)); · decide)
    | ((with_reducible apply Only.next (countWithheld_only _ _)); · decide)
    | ((with_reducible apply Only.next (protective_only _ _ _ _)); · decide)
    | ((with_reducible apply Only.next (raiseOpen_only _ _ _)); · decide)
    | ((with_reducible apply Only.next (launch_only _ _ _ _)); · decide)
    | with_reducible apply Only.ite
    | ((with_reducible apply Only.mkThen)
       · intro p hp; cases p <;> first | exact absurd (by decide) hp | rfl | exact ⟨rfl, rfl⟩ | exact ⟨rfl, rfl, rfl, rfl, rfl⟩)

theorem stepShot_only (r : Rd) (forced first : Bool) (x : Shot) (s : State) : Only [.free, .devState, .resume, .irq, .sys, .inhibit, .shots, .emits, .counts, .fire, .fronts, .samp, .greys, .stk, .cal, .hk, .axA, .axB, .replies, .flash, .casc, .log, .fltQueue] s (stepShot r forced first x s) := by
  unfold stepShot
  dsimp only
  repeat' first
    | with_reducible exact Only.refl _ _
    | ((with_reducible apply Only.next (modEmit_only _ _ _)); · decide)
    | ((with_reducible apply Only.next (countSkip_only _)); · decide)
    | ((with_reducible apply Only.next (countWithheld_only _ _)); · decide)
    | ((with_reducible apply Only.next (raiseOpen_only _ _ _)); · decide)
    | ((with_reducible apply Only.next (hdrWithheld_only _)); · decide)
    | ((with_reducible apply Only.next (dwellTest_only _ _ _ _)); · decide)
    | with_reducible apply Only.ite
    | ((with_reducible apply Only.mkThen)
       · intro p hp; cases p <;> first | exact absurd (by decide) hp | rfl | exact ⟨rfl, rfl⟩ | exact ⟨rfl, rfl, rfl, rfl, rfl⟩)

theorem carryShot_only (x : Shot) (s : State) : Only [.counts, .fire] s (carryShot x s) := by
  unfold carryShot
  repeat' first
    | with_reducible exact Only.refl _ _
    | ((with_reducible apply Only.next (modHdr_only _ _)); · decide)
    | with_reducible apply Only.ite
    | ((with_reducible apply Only.mkThen)
       · intro p hp; cases p <;> first | exact absurd (by decide) hp | rfl | exact ⟨rfl, rfl⟩ | exact ⟨rfl, rfl, rfl, rfl, rfl⟩)

theorem withholdFrom_only (ev g : Nat) (s : State) : Only [.shots, .emits, .counts, .fire, .samp, .stk, .hk] s (withholdFrom ev g s) := by
  unfold withholdFrom
  dsimp only
  repeat' first
    | with_reducible exact Only.refl _ _
    | ((with_reducible apply Only.next (countSkip_only _)); · decide)
    | ((with_reducible apply Only.next (countWithheld_only _ _)); · decide)
    | ((with_reducible apply Only.next (dropShot_only _ _)); · decide)
    | ((with_reducible apply Only.next (carryShot_only _ _)); · decide)
    | with_reducible apply Only.each
    | intro _ _
    | with_reducible apply Only.ite
    | ((with_reducible apply Only.mkThen)
       · intro p hp; cases p <;> first | exact absurd (by decide) hp | rfl | exact ⟨rfl, rfl⟩ | exact ⟨rfl, rfl, rfl, rfl, rfl⟩)

theorem deferFrame_only (s : State) : Only [.sys, .counts, .fire] s (deferFrame s) := by
  unfold deferFrame
  repeat' first
    | with_reducible exact Only.refl _ _
    | ((with_reducible apply Only.next (modHdr_only _ _)); · decide)
    | with_reducible apply Only.ite
    | ((with_reducible apply Only.mkThen)
       · intro p hp; cases p <;> first | exact absurd (by decide) hp | rfl | exact ⟨rfl, rfl⟩ | exact ⟨rfl, rfl, rfl, rfl, rfl⟩)

theorem frameEvent_only (ev : Nat) (all limit : Bool) (s : State) : Only [.sys, .shots, .emits, .counts, .fire, .samp, .stk, .hk, .casc] s (frameEvent ev all limit s) := by
  unfold frameEvent
  dsimp only
  repeat' first
    | with_reducible exact Only.refl _ _
    | ((with_reducible apply Only.next (deferFrame_only _)); · decide)
    | ((with_reducible apply Only.next (withholdFrom_only _ _ _)); · decide)
    | ((with_reducible apply Only.next (ringSend_only _ _)); · decide)
    | with_reducible apply Only.ite
    | ((with_reducible apply Only.mkThen)
       · intro p hp; cases p <;> first | exact absurd (by decide) hp | rfl | exact ⟨rfl, rfl⟩ | exact ⟨rfl, rfl, rfl, rfl, rfl⟩)

theorem shotsReached_only (nom : Nat) (s : State) : Only [.sys, .shots, .emits, .counts, .fire, .samp, .stk, .hk, .casc] s (shotsReached nom s) := by
  unfold shotsReached
  repeat' first
    | with_reducible exact Only.refl _ _
    | ((with_reducible apply Only.next (frameEvent_only _ _ _ _)); · decide)
    | with_reducible apply Only.ite
    | ((with_reducible apply Only.mkThen)
       · intro p hp; cases p <;> first | exact absurd (by decide) hp | rfl | exact ⟨rfl, rfl⟩ | exact ⟨rfl, rfl, rfl, rfl, rfl⟩)

theorem firstEdge_only (x : Shot) (s : State) : Only [.shots, .emits, .fronts, .zone] s (firstEdge x s) := by
  unfold firstEdge
  dsimp only
  repeat' first
    | with_reducible exact Only.refl _ _
    | ((with_reducible apply Only.next (modShot_only _ _ _)); · decide)
    | ((with_reducible apply Only.next (modEmit_only _ _ _)); · decide)
    | ((with_reducible apply Only.next (modFront_only _ _ _)); · decide)
    | ((with_reducible apply Only.next (zoneShot_only _ _)); · decide)
    | with_reducible apply Only.each
    | intro _ _
    | with_reducible apply Only.ite
    | ((with_reducible apply Only.mkThen)
       · intro p hp; cases p <;> first | exact absurd (by decide) hp | rfl | exact ⟨rfl, rfl⟩ | exact ⟨rfl, rfl, rfl, rfl, rfl⟩)

/-! ### Wire -/

theorem bufAdd_only (e : CmdEntry) (s : State) : Only [.port] s (bufAdd e s) := by
  unfold bufAdd
  repeat' first
    | with_reducible exact Only.refl _ _
    | with_reducible apply Only.ite
    | ((with_reducible apply Only.mkThen)
       · intro p hp; cases p <;> first | exact absurd (by decide) hp | rfl | exact ⟨rfl, rfl⟩ | exact ⟨rfl, rfl, rfl, rfl, rfl⟩)

theorem bufPacket_only (org : Origin) (b : List Byte) (s : State) : Only [.port] s (bufPacket org b s) := by
  unfold bufPacket
  repeat' first
    | with_reducible exact Only.refl _ _
    | ((with_reducible apply Only.next (bufAdd_only _ _)); · decide)
    | with_reducible apply Only.ite
    | ((with_reducible apply Only.mkThen)
       · intro p hp; cases p <;> first | exact absurd (by decide) hp | rfl | exact ⟨rfl, rfl⟩ | exact ⟨rfl, rfl, rfl, rfl, rfl⟩)

theorem bufOwn_only (org : Origin) (st : Nat) (b : List Byte) (s : State) : Only [.port] s (bufOwn org st b s) := by
  unfold bufOwn
  repeat' first
    | with_reducible exact Only.refl _ _
    | ((with_reducible apply Only.next (bufAdd_only _ _)); · decide)
    | with_reducible apply Only.ite
    | ((with_reducible apply Only.mkThen)
       · intro p hp; cases p <;> first | exact absurd (by decide) hp | rfl | exact ⟨rfl, rfl⟩ | exact ⟨rfl, rfl, rfl, rfl, rfl⟩)

theorem ringPacket_only (dst : Nat) (b : List Byte) (s : State) : Only [.casc] s (ringPacket dst b s) := by
  unfold ringPacket
  repeat' first
    | with_reducible exact Only.refl _ _
    | with_reducible apply Only.ite
    | ((with_reducible apply Only.mkThen)
       · intro p hp; cases p <;> first | exact absurd (by decide) hp | rfl | exact ⟨rfl, rfl⟩ | exact ⟨rfl, rfl, rfl, rfl, rfl⟩)

theorem flushFwd_only (n : Nat) (s : State) : Only [.replies, .casc] s (flushFwd n s) := by
  induction n generalizing s with
  | zero => exact .refl _ _
  | succ n ih =>
    unfold flushFwd
    repeat' first
      | with_reducible exact Only.refl _ _
      | ((with_reducible apply Only.next (ih _)); · first | decide | exact fun _ h => h)
      | split
      | dsimp only
      | ((with_reducible apply Only.mkThen); · intro p hp; cases p <;> first | exact absurd (by decide) hp | rfl | exact ⟨rfl, rfl⟩ | exact ⟨rfl, rfl, rfl, rfl, rfl⟩)

theorem ringReplies_only (s : State) : Only [.replies, .casc] s (ringReplies s) := by
  unfold ringReplies
  repeat' first
    | with_reducible exact Only.refl _ _
    | ((with_reducible apply Only.next (ringPacket_only _ _ _)); · decide)
    | with_reducible apply Only.each
    | intro _ _
    | with_reducible apply Only.ite
    | ((with_reducible apply Only.mkThen)
       · intro p hp; cases p <;> first | exact absurd (by decide) hp | rfl | exact ⟨rfl, rfl⟩ | exact ⟨rfl, rfl, rfl, rfl, rfl⟩)

theorem drainOwn_only (n : Nat) (s : State) : Only [.sys, .replies, .port] s (drainOwn n s) := by
  induction n generalizing s with
  | zero => exact .refl _ _
  | succ n ih =>
    unfold drainOwn
    repeat' first
      | with_reducible exact Only.refl _ _
      | ((with_reducible apply Only.next (ih _)); · first | decide | exact fun _ h => h)
      | split
      | dsimp only
      | ((with_reducible apply Only.mkThen); · intro p hp; cases p <;> first | exact absurd (by decide) hp | rfl | exact ⟨rfl, rfl⟩ | exact ⟨rfl, rfl, rfl, rfl, rfl⟩)

theorem takeFrame_only {sor : Bool} {b : List Byte} {s t : State} (h : takeFrame sor b s = some t) : Only [.port, .link] s t := by
  unfold takeFrame at h
  dsimp only at h
  repeat' split at h
  all_goals first
    | cases h
    | skip
  all_goals repeat' first
    | with_reducible exact Only.refl _ _
    | ((with_reducible apply Only.next (bufOwn_only _ _ _ _)); · first | decide | exact fun _ h => h)
    | ((with_reducible apply Only.next (bufAdd_only _ _)); · first | decide | exact fun _ h => h)
    | split
    | dsimp only
    | ((with_reducible apply Only.mkThen); · intro p hp; cases p <;> first | exact absurd (by decide) hp | rfl | exact ⟨rfl, rfl⟩ | exact ⟨rfl, rfl, rfl, rfl, rfl⟩)

theorem linkPull_only (n : Nat) (s : State) : Only [.port, .link] s (linkPull n s) := by
  induction n generalizing s with
  | zero => exact .refl _ _
  | succ n ih =>
    unfold linkPull
    repeat' split
    all_goals first
      | exact .refl _ _
      | skip
    · rename_i h
      refine .andThen (ih _) ?_
      ((with_reducible apply Only.mkThen); · intro p hp; cases p <;> first | exact absurd (by decide) hp | rfl | exact ⟨rfl, rfl⟩ | exact ⟨rfl, rfl, rfl, rfl, rfl⟩)
      exact .andThen (takeFrame_only h) (.refl _ _)
    · refine .andThen (ih _) ?_
      ((with_reducible apply Only.mkThen); · intro p hp; cases p <;> first | exact absurd (by decide) hp | rfl | exact ⟨rfl, rfl⟩ | exact ⟨rfl, rfl, rfl, rfl, rfl⟩)
      exact .refl _ _

theorem settle_only (s : State) : Only [.sys, .replies, .port, .link, .casc] s (settle s) := by
  unfold settle
  dsimp only
  repeat' first
    | with_reducible exact Only.refl _ _
    | ((with_reducible apply Only.next (flushFwd_only _ _)); · decide)
    | ((with_reducible apply Only.next (ringReplies_only _)); · decide)
    | ((with_reducible apply Only.next (drainOwn_only _ _)); · decide)
    | ((with_reducible apply Only.next (linkPull_only _ _)); · decide)
    | with_reducible apply Only.ite
    | ((with_reducible apply Only.mkThen)
       · intro p hp; cases p <;> first | exact absurd (by decide) hp | rfl | exact ⟨rfl, rfl⟩ | exact ⟨rfl, rfl, rfl, rfl, rfl⟩)

theorem forward_only (opc : Nat) (q : Req) (ds : List Nat) (s : State) : Only [.casc] s (forward opc q ds s) := by
  unfold forward
  repeat' first
    | with_reducible exact Only.refl _ _
    | ((with_reducible apply Only.next (ringPacket_only _ _ _)); · decide)
    | with_reducible apply Only.each
    | intro _ _
    | with_reducible apply Only.ite
    | ((with_reducible apply Only.mkThen)
       · intro p hp; cases p <;> first | exact absurd (by decide) hp | rfl | exact ⟨rfl, rfl⟩ | exact ⟨rfl, rfl, rfl, rfl, rfl⟩)

theorem Only.busyWrite {L : List StatePart} {opc : Nat} {write : Bool} {body : Req → State → State} {q : Req} {s : State}
    (hb : ∀ q s, Only L s (body q s)) (sub : ∀ p ∈ [.replies], p ∈ L := by decide) :
    Only L s (busyWrite opc write body q s) := by
  unfold Machine.busyWrite
  repeat' first
    | with_reducible exact Only.refl _ _
    | ((with_reducible apply Only.next (hb ..)); · first | decide | exact fun _ h => h)
    | ((with_reducible apply Only.next (replyTo_only _ _ _ _ _)); · exact sub)
    | split
    | dsimp only

theorem Only.runOpcode {L : List StatePart} {opc : Nat} {write lenOk : Bool} {body : Req → State → State} {q : Req}
    {s : State} (hb : ∀ q s, Only L s (body q s)) (sub : ∀ p ∈ [StatePart.replies], p ∈ L := by decide) :
    Only L s (runOpcode opc write lenOk body q s) := by
  unfold Machine.runOpcode
  have hr : ∀ n, Only L s (replyTo opc q n [] s) := fun n => (replyTo_only _ _ _ _ _).weaken sub
  exact .ite (hr _) (.ite (hr _) (.busyWrite hb sub))

theorem Only.interpret {L : List StatePart} {opc : Nat} {write lenOk : Bool} {body : Req → State → State} {q : Req}
    {s : State} (hb : ∀ q s, Only L s (body q s)) (sub : ∀ p ∈ [.sys, .replies, .casc], p ∈ L := by decide) :
    Only L s (interpret opc write lenOk body q s) := by
  unfold Machine.interpret
  have sr : ∀ p ∈ [StatePart.replies], p ∈ L := fun p hp => sub p (by revert p; decide)
  have hr : ∀ n, Only L s (replyTo opc q n [] s) := fun n => (replyTo_only _ _ _ _ _).weaken sr
  have hf : ∀ ds t, Only L t (forward opc q ds t) := fun ds t => (forward_only _ _ _ _).weaken fun p hp => sub p (by revert p; decide)
  have ho : Only L s (Machine.runOpcode opc write lenOk body q s) := .runOpcode hb sr
  dsimp only
  refine .ite ?_ (.ite (hb ..) (.ite ho (.ite (.ite ((hf ..).andThen ho fun _ h => h) ho) (.ite (hf ..) (hr _)))))
  refine ((replyTo_only _ _ _ _ _).weaken sr).andThen (Only.weaken (l := [.sys, .replies, .casc]) ?_ sub) fun _ h => h
  ((with_reducible apply Only.mkThen); · intro p hp; cases p <;> first | exact absurd (by decide) hp | rfl | exact ⟨rfl, rfl⟩ | exact ⟨rfl, rfl, rfl, rfl, rfl⟩)
  exact .refl _ _

theorem Only.serveWith {L : List StatePart} {opc : Byte} {run : Req → State → State} {q : Req} {s : State}
    (hr : ∀ q s, Only L s (run q s)) (sub : ∀ p ∈ [.sys, .replies, .port, .link, .casc], p ∈ L := by decide) :
    Only L s (serveWith opc run q s) := by
  unfold Machine.serveWith
  have hs : ∀ t, Only L t (settle t) := fun t => (settle_only _).weaken fun p hp => sub p (by revert p; decide)
  have hb : Only L s (bufPacket q.org (requestBytes opc q) s) := (bufPacket_only _ _ _).weaken fun p hp => sub p (by revert p; decide)
  split
  · exact .ite ((hs _).andThen (hr ..) fun _ h => h) hb
  · refine .ite (.ite (((hs _).andThen (hr ..) fun _ h => h).andThen (Only.weaken (l := [.sys, .replies, .port, .link, .casc]) ?_ sub) fun _ h => h) (.refl _ _)) hb
    ((with_reducible apply Only.mkThen); · intro p hp; cases p <;> first | exact absurd (by decide) hp | rfl | exact ⟨rfl, rfl⟩ | exact ⟨rfl, rfl, rfl, rfl, rfl⟩)
    exact .refl _ _

theorem Only.serve {L : List StatePart} {opc : Nat} {write lenOk : Bool} {body : Req → State → State} {q : Req} {s : State}
    (hb : ∀ q s, Only L s (body q s)) (sub : ∀ p ∈ [.sys, .replies, .port, .link, .casc], p ∈ L := by decide) :
    Only L s (serve opc write lenOk body q s) := by
  unfold Machine.serve
  exact .serveWith (fun _ _ => .interpret hb fun p hp => sub p (by revert p; decide)) fun p hp => sub p (by revert p; decide)

/-! ### Link -/

theorem sendCtl_only (typ lane : Nat) (content : List Nat) (s : State) : Only [.link] s (sendCtl typ lane content s) := by
  unfold sendCtl
  repeat' first
    | with_reducible exact Only.refl _ _
    | with_reducible apply Only.ite
    | ((with_reducible apply Only.mkThen)
       · intro p hp; cases p <;> first | exact absurd (by decide) hp | rfl | exact ⟨rfl, rfl⟩ | exact ⟨rfl, rfl, rfl, rfl, rfl⟩)

theorem alignAll_only (use : List Nat) (s : State) : Only [.link] s (alignAll use s) := by
  unfold alignAll
  dsimp only
  repeat' first
    | with_reducible exact Only.refl _ _
    | ((with_reducible apply Only.next (sendCtl_only _ _ _ _)); · decide)
    | with_reducible apply Only.each
    | intro _ _
    | with_reducible apply Only.ite
    | ((with_reducible apply Only.mkThen)
       · intro p hp; cases p <;> first | exact absurd (by decide) hp | rfl | exact ⟨rfl, rfl⟩ | exact ⟨rfl, rfl, rfl, rfl, rfl⟩)

theorem setLink_only (st : LinkState) (s : State) : Only [.irq, .link] s (setLink st s) := by
  unfold setLink
  dsimp only
  repeat' first
    | with_reducible exact Only.refl _ _
    | ((with_reducible apply Only.next (irq_only _ _)); · decide)
    | with_reducible apply Only.ite
    | ((with_reducible apply Only.mkThen)
       · intro p hp; cases p <;> first | exact absurd (by decide) hp | rfl | exact ⟨rfl, rfl⟩ | exact ⟨rfl, rfl, rfl, rfl, rfl⟩)

theorem dropLaneReq_only (s : State) : Only [.replies, .link] s (dropLaneReq s) := by
  unfold dropLaneReq
  repeat' first
    | with_reducible exact Only.refl _ _
    | ((with_reducible apply Only.next (replyTo_only _ _ _ _ _)); · decide)
    | with_reducible apply Only.ite
    | split
    | ((with_reducible apply Only.mkThen)
       · intro p hp; cases p <;> first | exact absurd (by decide) hp | rfl | exact ⟨rfl, rfl⟩ | exact ⟨rfl, rfl, rfl, rfl, rfl⟩)
    | dsimp only

theorem enterDetect_only (s0 : State) : Only [.irq, .replies, .link] s0 (enterDetect s0) := by
  unfold enterDetect
  dsimp only
  repeat' first
    | with_reducible exact Only.refl _ _
    | ((with_reducible apply Only.next (dropLaneReq_only _)); · decide)
    | ((with_reducible apply Only.next (setLink_only _ _)); · decide)
    | with_reducible apply Only.ite
    | ((with_reducible apply Only.mkThen)
       · intro p hp; cases p <;> first | exact absurd (by decide) hp | rfl | exact ⟨rfl, rfl⟩ | exact ⟨rfl, rfl, rfl, rfl, rfl⟩)

theorem enterDown_only (s0 : State) : Only [.irq, .replies, .link] s0 (enterDown s0) := by
  unfold enterDown
  dsimp only
  repeat' first
    | with_reducible exact Only.refl _ _
    | ((with_reducible apply Only.next (dropLaneReq_only _)); · decide)
    | ((with_reducible apply Only.next (setLink_only _ _)); · decide)
    | with_reducible apply Only.ite
    | ((with_reducible apply Only.mkThen)
       · intro p hp; cases p <;> first | exact absurd (by decide) hp | rfl | exact ⟨rfl, rfl⟩ | exact ⟨rfl, rfl, rfl, rfl, rfl⟩)

theorem enterUp_only (s : State) : Only [.irq, .link] s (enterUp s) := by
  unfold enterUp
  repeat' first
    | with_reducible exact Only.refl _ _
    | ((with_reducible apply Only.next (setLink_only _ _)); · decide)
    | with_reducible apply Only.ite
    | ((with_reducible apply Only.mkThen)
       · intro p hp; cases p <;> first | exact absurd (by decide) hp | rfl | exact ⟨rfl, rfl⟩ | exact ⟨rfl, rfl, rfl, rfl, rfl⟩)

theorem clearAligns_only (s : State) : Only [.link] s (clearAligns s) := by
  unfold clearAligns
  repeat' first
    | with_reducible exact Only.refl _ _
    | ((with_reducible apply Only.next (modLane_only _ _ _)); · decide)
    | with_reducible apply Only.each
    | intro _ _
    | with_reducible apply Only.ite
    | ((with_reducible apply Only.mkThen)
       · intro p hp; cases p <;> first | exact absurd (by decide) hp | rfl | exact ⟨rfl, rfl⟩ | exact ⟨rfl, rfl, rfl, rfl, rfl⟩)

theorem linkStep_only (s : State) : Only [.irq, .sys, .replies, .port, .link, .casc] s (linkStep s) := by
  unfold linkStep
  repeat' first
    | with_reducible exact Only.refl _ _
    | ((with_reducible apply Only.next (settle_only _)); · decide)
    | ((with_reducible apply Only.next (enterUp_only _)); · decide)
    | ((with_reducible apply Only.next (setLink_only _ _)); · decide)
    | ((with_reducible apply Only.next (clearAligns_only _)); · decide)
    | with_reducible apply Only.ite
    | split
    | ((with_reducible apply Only.mkThen)
       · intro p hp; cases p <;> first | exact absurd (by decide) hp | rfl | exact ⟨rfl, rfl⟩ | exact ⟨rfl, rfl, rfl, rfl, rfl⟩)
    | dsimp only

theorem linkPower_only (s : State) : Only [.irq, .replies, .link] s (linkPower s) := by
  unfold linkPower
  dsimp only
  repeat' first
    | with_reducible exact Only.refl _ _
    | ((with_reducible apply Only.next (dropLaneReq_only _)); · decide)
    | ((with_reducible apply Only.next (setLink_only _ _)); · decide)
    | ((with_reducible apply Only.next (enterDown_only _)); · decide)
    | ((with_reducible apply Only.next (enterDetect_only _)); · decide)
    | with_reducible apply Only.ite
    | ((with_reducible apply Only.mkThen)
       · intro p hp; cases p <;> first | exact absurd (by decide) hp | rfl | exact ⟨rfl, rfl⟩ | exact ⟨rfl, rfl, rfl, rfl, rfl⟩)

theorem linkSwap_only (r0 : Rd) (s : State) : Only [.irq, .replies, .link] s (linkSwap r0 s) := by
  unfold linkSwap
  dsimp only
  repeat' first
    | with_reducible exact Only.refl _ _
    | ((with_reducible apply Only.next (linkPower_only _)); · decide)
    | ((with_reducible apply Only.next (enterDown_only _)); · decide)
    | ((with_reducible apply Only.next (enterDetect_only _)); · decide)
    | with_reducible apply Only.ite
    | ((with_reducible apply Only.mkThen)
       · intro p hp; cases p <;> first | exact absurd (by decide) hp | rfl | exact ⟨rfl, rfl⟩ | exact ⟨rfl, rfl, rfl, rfl, rfl⟩)

theorem loadCtrl_only (s : State) : Only [.link] s (loadCtrl s) := by
  unfold loadCtrl
  repeat' first
    | with_reducible exact Only.refl _ _
    | ((with_reducible apply Only.next (linkFresh_only _ _ _ _ _)); · decide)
    | with_reducible apply Only.ite
    | split
    | ((with_reducible apply Only.mkThen)
       · intro p hp; cases p <;> first | exact absurd (by decide) hp | rfl | exact ⟨rfl, rfl⟩ | exact ⟨rfl, rfl, rfl, rfl, rfl⟩)
    | dsimp only

theorem ctrlSent_only (s : State) : Only [.sys, .replies, .port, .link, .casc] s (ctrlSent s) := by
  unfold ctrlSent
  repeat' first
    | with_reducible exact Only.refl _ _
    | ((with_reducible apply Only.next (settle_only _)); · decide)
    | with_reducible apply Only.ite
    | split
    | ((with_reducible apply Only.mkThen)
       · intro p hp; cases p <;> first | exact absurd (by decide) hp | rfl | exact ⟨rfl, rfl⟩ | exact ⟨rfl, rfl, rfl, rfl, rfl⟩)
    | dsimp only

theorem leaveUse_only (k : Nat) (mark : Bool) (s : State) : Only [.link] s (leaveUse k mark s) := by
  unfold leaveUse
  dsimp only
  repeat' first
    | with_reducible exact Only.refl _ _
    | ((with_reducible apply Only.next (alignAll_only _ _)); · decide)
    | with_reducible apply Only.ite
    | ((with_reducible apply Only.mkThen)
       · intro p hp; cases p <;> first | exact absurd (by decide) hp | rfl | exact ⟨rfl, rfl⟩ | exact ⟨rfl, rfl, rfl, rfl, rfl⟩)

theorem joinUse_only (k : Nat) (s : State) : Only [.link] s (joinUse k s) := by
  unfold joinUse
  dsimp only
  repeat' first
    | with_reducible exact Only.refl _ _
    | ((with_reducible apply Only.next (alignAll_only _ _)); · decide)
    | with_reducible apply Only.ite
    | ((with_reducible apply Only.mkThen)
       · intro p hp; cases p <;> first | exact absurd (by decide) hp | rfl | exact ⟨rfl, rfl⟩ | exact ⟨rfl, rfl, rfl, rfl, rfl⟩)

theorem degradeLane_only (k : Nat) (s : State) : Only [.irq, .link] s (degradeLane k s) := by
  unfold degradeLane
  dsimp only
  repeat' first
    | with_reducible exact Only.refl _ _
    | ((with_reducible apply Only.next (irq_only _ _)); · decide)
    | ((with_reducible apply Only.next (modLane_only _ _ _)); · decide)
    | ((with_reducible apply Only.next (leaveUse_only _ _ _)); · decide)
    | with_reducible apply Only.ite
    | ((with_reducible apply Only.mkThen)
       · intro p hp; cases p <;> first | exact absurd (by decide) hp | rfl | exact ⟨rfl, rfl⟩ | exact ⟨rfl, rfl, rfl, rfl, rfl⟩)

theorem restoreLane_only (k : Nat) (s : State) : Only [.irq, .link] s (restoreLane k s) := by
  unfold restoreLane
  repeat' first
    | with_reducible exact Only.refl _ _
    | ((with_reducible apply Only.next (joinUse_only _ _)); · decide)
    | ((with_reducible apply Only.next (irq_only _ _)); · decide)
    | ((with_reducible apply Only.next (modLane_only _ _ _)); · decide)
    | with_reducible apply Only.ite
    | ((with_reducible apply Only.mkThen)
       · intro p hp; cases p <;> first | exact absurd (by decide) hp | rfl | exact ⟨rfl, rfl⟩ | exact ⟨rfl, rfl, rfl, rfl, rfl⟩)

theorem txLaneState_only (code : Nat) (ks : List Nat) (q : Req) (s : State) : Only [.irq, .replies, .link] s (txLaneState code ks q s) := by
  unfold txLaneState
  dsimp only
  repeat' first
    | with_reducible exact Only.refl _ _
    | ((with_reducible apply Only.next (replyTo_only _ _ _ _ _)); · decide)
    | ((with_reducible apply Only.next (modLane_only _ _ _)); · decide)
    | ((with_reducible apply Only.next (irq_only _ _)); · decide)
    | ((with_reducible apply Only.next (leaveUse_only _ _ _)); · decide)
    | ((with_reducible apply Only.next (enterDown_only _)); · decide)
    | ((with_reducible apply Only.next (joinUse_only _ _)); · decide)
    | ((with_reducible apply Only.next (enterDetect_only _)); · decide)
    | with_reducible apply Only.each
    | intro _ _
    | with_reducible apply Only.ite
    | ((with_reducible apply Only.mkThen)
       · intro p hp; cases p <;> first | exact absurd (by decide) hp | rfl | exact ⟨rfl, rfl⟩ | exact ⟨rfl, rfl, rfl, rfl, rfl⟩)

theorem rxLaneState_only (code : Nat) (ks : List Nat) (q : Req) (s : State) : Only [.irq, .replies, .link] s (rxLaneState code ks q s) := by
  unfold rxLaneState
  dsimp only
  repeat' first
    | with_reducible exact Only.refl _ _
    | ((with_reducible apply Only.next (irq_only _ _)); · decide)
    | ((with_reducible apply Only.next (modLane_only _ _ _)); · decide)
    | ((with_reducible apply Only.next (replyTo_only _ _ _ _ _)); · decide)
    | ((with_reducible apply Only.next (enterDown_only _)); · decide)
    | ((with_reducible apply Only.next (enterDetect_only _)); · decide)
    | with_reducible apply Only.each
    | intro _ _
    | with_reducible apply Only.ite
    | ((with_reducible apply Only.mkThen)
       · intro p hp; cases p <;> first | exact absurd (by decide) hp | rfl | exact ⟨rfl, rfl⟩ | exact ⟨rfl, rfl, rfl, rfl, rfl⟩)

theorem linkLaneState_only (q : Req) (s : State) : Only [.irq, .replies, .link] s (linkLaneState q s) := by
  unfold linkLaneState
  dsimp only
  repeat' first
    | with_reducible exact Only.refl _ _
    | ((with_reducible apply Only.next (replyTo_only _ _ _ _ _)); · decide)
    | ((with_reducible apply Only.next (rxLaneState_only _ _ _ _)); · decide)
    | ((with_reducible apply Only.next (txLaneState_only _ _ _ _)); · decide)
    | with_reducible apply Only.ite
    | ((with_reducible apply Only.mkThen)
       · intro p hp; cases p <;> first | exact absurd (by decide) hp | rfl | exact ⟨rfl, rfl⟩ | exact ⟨rfl, rfl, rfl, rfl, rfl⟩)

theorem linkDomainOff_only (d : Nat) (s : State) : Only [.irq, .eng, .replies, .link] s (linkDomainOff d s) := by
  unfold linkDomainOff
  repeat' first
    | with_reducible exact Only.refl _ _
    | ((with_reducible apply Only.next (linkPower_only _)); · decide)
    | ((with_reducible apply Only.next (noteFull_only _)); · decide)
    | with_reducible apply Only.ite
    | ((with_reducible apply Only.mkThen)
       · intro p hp; cases p <;> first | exact absurd (by decide) hp | rfl | exact ⟨rfl, rfl⟩ | exact ⟨rfl, rfl, rfl, rfl, rfl⟩)

theorem linkClockLost_only (s : State) : Only [.irq, .replies, .link] s (linkClockLost s) := by
  unfold linkClockLost
  repeat' first
    | with_reducible exact Only.refl _ _
    | ((with_reducible apply Only.next (irq_only _ _)); · decide)
    | ((with_reducible apply Only.next (enterDown_only _)); · decide)
    | with_reducible apply Only.ite
    | ((with_reducible apply Only.mkThen)
       · intro p hp; cases p <;> first | exact absurd (by decide) hp | rfl | exact ⟨rfl, rfl⟩ | exact ⟨rfl, rfl, rfl, rfl, rfl⟩)

/-! ### Arch -/

theorem modRing_only (r : Nat) (f : Ring → Ring) (s : State) : Only [.arch] s (modRing r f s) := by
  unfold modRing
  repeat' first
    | with_reducible exact Only.refl _ _
    | with_reducible apply Only.ite
    | ((with_reducible apply Only.mkThen)
       · intro p hp; cases p <;> first | exact absurd (by decide) hp | rfl | exact ⟨rfl, rfl⟩ | exact ⟨rfl, rfl, rfl, rfl, rfl⟩)

theorem archIrq_only (s : State) : Only [.irq] s (archIrq s) := by
  unfold archIrq
  repeat' first
    | with_reducible exact Only.refl _ _
    | ((with_reducible apply Only.next (irq_only _ _)); · decide)
    | with_reducible apply Only.ite
    | ((with_reducible apply Only.mkThen)
       · intro p hp; cases p <;> first | exact absurd (by decide) hp | rfl | exact ⟨rfl, rfl⟩ | exact ⟨rfl, rfl, rfl, rfl, rfl⟩)

theorem countBytes_only (n : Nat) (s : State) : Only [.irq, .arch] s (countBytes n s) := by
  unfold countBytes
  dsimp only
  repeat' first
    | with_reducible exact Only.refl _ _
    | ((with_reducible apply Only.next (archIrq_only _)); · decide)
    | with_reducible apply Only.ite
    | split
    | ((with_reducible apply Only.mkThen)
       · intro p hp; cases p <;> first | exact absurd (by decide) hp | rfl | exact ⟨rfl, rfl⟩ | exact ⟨rfl, rfl, rfl, rfl, rfl⟩)
    | dsimp only

theorem archCmd_only (use : NvmeUse) (addr : Nat) (data : List Byte) (n : Nat) (got : List Byte) (s : State) : Only [.irq, .arch] s (archCmd use addr data n got s) := by
  unfold archCmd
  dsimp only
  repeat' first
    | with_reducible exact Only.refl _ _
    | ((with_reducible apply Only.next (countBytes_only _ _)); · decide)
    | with_reducible apply Only.ite
    | ((with_reducible apply Only.mkThen)
       · intro p hp; cases p <;> first | exact absurd (by decide) hp | rfl | exact ⟨rfl, rfl⟩ | exact ⟨rfl, rfl, rfl, rfl, rfl⟩)

theorem archIssue_only (use : NvmeUse) (addr : Nat) (data : List Byte) (s : State) : Only [.irq, .arch] s (archIssue use addr data s) := by
  unfold archIssue
  repeat' first
    | with_reducible exact Only.refl _ _
    | ((with_reducible apply Only.next (archCmd_only _ _ _ _ _ _)); · decide)
    | with_reducible apply Only.ite
    | ((with_reducible apply Only.mkThen)
       · intro p hp; cases p <;> first | exact absurd (by decide) hp | rfl | exact ⟨rfl, rfl⟩ | exact ⟨rfl, rfl, rfl, rfl, rfl⟩)

theorem archRead_only (use : NvmeUse) (addr n : Nat) (s : State) : Only [.irq, .arch] s (archRead use addr n s) := by
  unfold archRead
  repeat' first
    | with_reducible exact Only.refl _ _
    | ((with_reducible apply Only.next (archCmd_only _ _ _ _ _ _)); · decide)
    | with_reducible apply Only.ite
    | ((with_reducible apply Only.mkThen)
       · intro p hp; cases p <;> first | exact absurd (by decide) hp | rfl | exact ⟨rfl, rfl⟩ | exact ⟨rfl, rfl, rfl, rfl, rfl⟩)

theorem writeSuper_only (use : NvmeUse) (copy : Nat) (s : State) : Only [.irq, .arch] s (writeSuper use copy s) := by
  unfold writeSuper
  repeat' first
    | with_reducible exact Only.refl _ _
    | ((with_reducible apply Only.next (archIssue_only _ _ _ _)); · decide)
    | with_reducible apply Only.ite
    | ((with_reducible apply Only.mkThen)
       · intro p hp; cases p <;> first | exact absurd (by decide) hp | rfl | exact ⟨rfl, rfl⟩ | exact ⟨rfl, rfl, rfl, rfl, rfl⟩)

theorem writeCheckpoint_only (use : NvmeUse) (s : State) : Only [.irq, .arch] s (writeCheckpoint use s) := by
  unfold writeCheckpoint
  dsimp only
  repeat' first
    | with_reducible exact Only.refl _ _
    | ((with_reducible apply Only.next (archIssue_only _ _ _ _)); · decide)
    | with_reducible apply Only.ite
    | ((with_reducible apply Only.mkThen)
       · intro p hp; cases p <;> first | exact absurd (by decide) hp | rfl | exact ⟨rfl, rfl⟩ | exact ⟨rfl, rfl, rfl, rfl, rfl⟩)

theorem openExt_only (r : Nat) (s : State) : Only [.irq, .arch] s (openExt r s) := by
  unfold openExt
  dsimp only
  repeat' first
    | with_reducible exact Only.refl _ _
    | ((with_reducible apply Only.next (modRing_only _ _ _)); · decide)
    | ((with_reducible apply Only.next (archIssue_only _ _ _ _)); · decide)
    | with_reducible apply Only.ite
    | split
    | ((with_reducible apply Only.mkThen)
       · intro p hp; cases p <;> first | exact absurd (by decide) hp | rfl | exact ⟨rfl, rfl⟩ | exact ⟨rfl, rfl, rfl, rfl, rfl⟩)
    | dsimp only

theorem writeChunk_only (r : Nat) (s0 : State) : Only [.irq, .arch] s0 (writeChunk r s0) := by
  unfold writeChunk
  dsimp only
  repeat' first
    | with_reducible exact Only.refl _ _
    | ((with_reducible apply Only.next (openExt_only _ _)); · decide)
    | ((with_reducible apply Only.next (modRing_only _ _ _)); · decide)
    | ((with_reducible apply Only.next (archIssue_only _ _ _ _)); · decide)
    | with_reducible apply Only.ite
    | split
    | ((with_reducible apply Only.mkThen)
       · intro p hp; cases p <;> first | exact absurd (by decide) hp | rfl | exact ⟨rfl, rfl⟩ | exact ⟨rfl, rfl, rfl, rfl, rfl⟩)
    | dsimp only

theorem fillChunks_only (r n : Nat) (b : List Byte) (s : State) : Only [.irq, .arch] s (fillChunks r n b s) := by
  induction n generalizing b s with
  | zero => exact .refl _ _
  | succ n ih =>
    unfold fillChunks
    dsimp only
    repeat' first
      | with_reducible exact Only.refl _ _
      | ((with_reducible apply Only.next (ih _ _)); · first | decide | exact fun _ h => h)
      | ((with_reducible apply Only.next (modRing_only _ _ _)); · first | decide | exact fun _ h => h)
      | ((with_reducible apply Only.next (writeChunk_only _ _)); · first | decide | exact fun _ h => h)
      | split

theorem stageItem_only (r : Nat) (b : List Byte) (s : State) : Only [.irq, .arch] s (stageItem r b s) := by
  unfold stageItem
  dsimp only
  repeat' first
    | with_reducible exact Only.refl _ _
    | ((with_reducible apply Only.next (modRing_only _ _ _)); · decide)
    | ((with_reducible apply Only.next (writeChunk_only _ _)); · decide)
    | ((with_reducible apply Only.next (openExt_only _ _)); · decide)
    | ((with_reducible apply Only.next (fillChunks_only _ _ _ _)); · decide)
    | with_reducible apply Only.ite
    | ((with_reducible apply Only.mkThen)
       · intro p hp; cases p <;> first | exact absurd (by decide) hp | rfl | exact ⟨rfl, rfl⟩ | exact ⟨rfl, rfl, rfl, rfl, rfl⟩)

theorem dropRecord_only (r : Nat) (s : State) : Only [.arch] s (dropRecord r s) := by
  unfold dropRecord
  dsimp only
  repeat' first
    | with_reducible exact Only.refl _ _
    | with_reducible apply Only.ite
    | ((with_reducible apply Only.mkThen)
       · intro p hp; cases p <;> first | exact absurd (by decide) hp | rfl | exact ⟨rfl, rfl⟩ | exact ⟨rfl, rfl, rfl, rfl, rfl⟩)

theorem flushNext_only (s : State) : Only [.irq, .arch] s (flushNext s) := by
  unfold flushNext
  repeat' first
    | with_reducible exact Only.refl _ _
    | ((with_reducible apply Only.next (archIssue_only _ _ _ _)); · decide)
    | with_reducible apply Only.ite
    | ((with_reducible apply Only.mkThen)
       · intro p hp; cases p <;> first | exact absurd (by decide) hp | rfl | exact ⟨rfl, rfl⟩ | exact ⟨rfl, rfl, rfl, rfl, rfl⟩)

theorem dropWork_only (s : State) : Only [.stk, .arch] s (dropWork s) := by
  unfold dropWork
  dsimp only
  repeat' first
    | with_reducible exact Only.refl _ _
    | with_reducible apply Only.ite
    | split
    | ((with_reducible apply Only.mkThen)
       · intro p hp; cases p <;> first | exact absurd (by decide) hp | rfl | exact ⟨rfl, rfl⟩ | exact ⟨rfl, rfl, rfl, rfl, rfl⟩)
    | dsimp only

theorem archSuspend_only (s : State) : Only [.irq, .stk, .arch] s (archSuspend s) := by
  unfold archSuspend
  dsimp only
  repeat' first
    | with_reducible exact Only.refl _ _
    | ((with_reducible apply Only.next (archIrq_only _)); · decide)
    | ((with_reducible apply Only.next (dropWork_only _)); · decide)
    | with_reducible apply Only.ite
    | ((with_reducible apply Only.mkThen)
       · intro p hp; cases p <;> first | exact absurd (by decide) hp | rfl | exact ⟨rfl, rfl⟩ | exact ⟨rfl, rfl, rfl, rfl, rfl⟩)

theorem mountFail_only (res : Nat) (s : State) : Only [.irq, .stk, .arch] s (mountFail res s) := by
  unfold mountFail
  dsimp only
  repeat' first
    | with_reducible exact Only.refl _ _
    | ((with_reducible apply Only.next (archIrq_only _)); · decide)
    | ((with_reducible apply Only.next (dropWork_only _)); · decide)
    | with_reducible apply Only.ite
    | ((with_reducible apply Only.mkThen)
       · intro p hp; cases p <;> first | exact absurd (by decide) hp | rfl | exact ⟨rfl, rfl⟩ | exact ⟨rfl, rfl, rfl, rfl, rfl⟩)

theorem mountDone_only (s : State) : Only [.irq, .stk, .arch] s (mountDone s) := by
  unfold mountDone
  dsimp only
  repeat' first
    | with_reducible exact Only.refl _ _
    | ((with_reducible apply Only.next (archIrq_only _)); · decide)
    | ((with_reducible apply Only.next (archSuspend_only _)); · decide)
    | with_reducible apply Only.ite
    | ((with_reducible apply Only.mkThen)
       · intro p hp; cases p <;> first | exact absurd (by decide) hp | rfl | exact ⟨rfl, rfl⟩ | exact ⟨rfl, rfl, rfl, rfl, rfl⟩)

theorem mountAt_only (st : MountStage) (step : Nat) (s : State) : Only [.irq, .arch] s (mountAt st step s) := by
  unfold mountAt
  dsimp only
  repeat' first
    | with_reducible exact Only.refl _ _
    | ((with_reducible apply Only.next (writeSuper_only _ _ _)); · decide)
    | ((with_reducible apply Only.next (writeCheckpoint_only _ _)); · decide)
    | ((with_reducible apply Only.next (archRead_only _ _ _ _)); · decide)
    | ((with_reducible apply Only.next (archIssue_only _ _ _ _)); · decide)
    | with_reducible apply Only.ite
    | split
    | ((with_reducible apply Only.mkThen)
       · intro p hp; cases p <;> first | exact absurd (by decide) hp | rfl | exact ⟨rfl, rfl⟩ | exact ⟨rfl, rfl, rfl, rfl, rfl⟩)
    | dsimp only

theorem recovAt_only (step : Nat) (v : Recov) (s : State) : Only [.irq, .arch] s (recovAt step v s) := by
  unfold recovAt
  repeat' first
    | with_reducible exact Only.refl _ _
    | ((with_reducible apply Only.next (mountAt_only _ _ _)); · decide)
    | with_reducible apply Only.ite
    | ((with_reducible apply Only.mkThen)
       · intro p hp; cases p <;> first | exact absurd (by decide) hp | rfl | exact ⟨rfl, rfl⟩ | exact ⟨rfl, rfl, rfl, rfl, rfl⟩)

theorem takeSuper_only (o : Option (List Byte)) (s : State) : Only [.irq, .stk, .arch] s (takeSuper o s) := by
  unfold takeSuper
  repeat' first
    | with_reducible exact Only.refl _ _
    | ((with_reducible apply Only.next (mountFail_only _ _)); · decide)
    | ((with_reducible apply Only.next (recovAt_only _ _ _)); · decide)
    | with_reducible apply Only.ite
    | split
    | ((with_reducible apply Only.mkThen)
       · intro p hp; cases p <;> first | exact absurd (by decide) hp | rfl | exact ⟨rfl, rfl⟩ | exact ⟨rfl, rfl, rfl, rfl, rfl⟩)
    | dsimp only

theorem takeCkpt_only (o : Option (List Byte)) (s : State) : Only [.arch] s (takeCkpt o s) := by
  unfold takeCkpt
  dsimp only
  repeat' first
    | with_reducible exact Only.refl _ _
    | with_reducible apply Only.ite
    | split
    | ((with_reducible apply Only.mkThen)
       · intro p hp; cases p <;> first | exact absurd (by decide) hp | rfl | exact ⟨rfl, rfl⟩ | exact ⟨rfl, rfl, rfl, rfl, rfl⟩)
    | dsimp only

theorem nextScan_only (todo : List Nat) (s : State) : Only [.irq, .arch] s (nextScan todo s) := by
  unfold nextScan
  repeat' first
    | with_reducible exact Only.refl _ _
    | ((with_reducible apply Only.next (recovAt_only _ _ _)); · decide)
    | with_reducible apply Only.ite
    | split
    | ((with_reducible apply Only.mkThen)
       · intro p hp; cases p <;> first | exact absurd (by decide) hp | rfl | exact ⟨rfl, rfl⟩ | exact ⟨rfl, rfl, rfl, rfl, rfl⟩)
    | dsimp only

theorem nextHeader_only (n : Nat) (changed : List Nat) (s : State) : Only [.irq, .arch] s (nextHeader n changed s) := by
  unfold nextHeader
  repeat' first
    | with_reducible exact Only.refl _ _
    | ((with_reducible apply Only.next (recovAt_only _ _ _)); · decide)
    | ((with_reducible apply Only.next (nextScan_only _ _)); · decide)
    | with_reducible apply Only.ite
    | ((with_reducible apply Only.mkThen)
       · intro p hp; cases p <;> first | exact absurd (by decide) hp | rfl | exact ⟨rfl, rfl⟩ | exact ⟨rfl, rfl, rfl, rfl, rfl⟩)

theorem recovNext_only (step : Nat) (b : List Byte) (s : State) : Only [.irq, .stk, .arch] s (recovNext step b s) := by
  unfold recovNext
  dsimp only
  repeat' first
    | with_reducible exact Only.refl _ _
    | ((with_reducible apply Only.next (recovAt_only _ _ _)); · decide)
    | ((with_reducible apply Only.next (takeSuper_only _ _)); · decide)
    | ((with_reducible apply Only.next (takeCkpt_only _ _)); · decide)
    | ((with_reducible apply Only.next (nextHeader_only _ _ _)); · decide)
    | ((with_reducible apply Only.next (nextScan_only _ _)); · decide)
    | with_reducible apply Only.ite
    | ((with_reducible apply Only.mkThen)
       · intro p hp; cases p <;> first | exact absurd (by decide) hp | rfl | exact ⟨rfl, rfl⟩ | exact ⟨rfl, rfl, rfl, rfl, rfl⟩)

theorem initLayout_only (s : State) : Only [.irq, .stk, .arch] s (initLayout s) := by
  unfold initLayout
  dsimp only
  repeat' first
    | with_reducible exact Only.refl _ _
    | ((with_reducible apply Only.next (mountFail_only _ _)); · decide)
    | ((with_reducible apply Only.next (mountAt_only _ _ _)); · decide)
    | with_reducible apply Only.ite
    | ((with_reducible apply Only.mkThen)
       · intro p hp; cases p <;> first | exact absurd (by decide) hp | rfl | exact ⟨rfl, rfl⟩ | exact ⟨rfl, rfl, rfl, rfl, rfl⟩)

theorem healthIn_only (pct crit : Nat) (s : State) : Only [.free, .irq, .stk, .flash, .arch, .log] s (healthIn pct crit s) := by
  unfold healthIn
  dsimp only
  repeat' first
    | with_reducible exact Only.refl _ _
    | ((with_reducible apply Only.next (archIrq_only _)); · decide)
    | ((with_reducible apply Only.next (logNote_only _ _ _ _)); · decide)
    | ((with_reducible apply Only.next (archSuspend_only _)); · decide)
    | with_reducible apply Only.ite
    | ((with_reducible apply Only.mkThen)
       · intro p hp; cases p <;> first | exact absurd (by decide) hp | rfl | exact ⟨rfl, rfl⟩ | exact ⟨rfl, rfl, rfl, rfl, rfl⟩)

theorem mountNext_only (st : MountStage) (step : Nat) (d : NvmeData) (s : State) : Only [.free, .irq, .stk, .flash, .arch, .log] s (mountNext st step d s) := by
  unfold mountNext
  dsimp only
  repeat' first
    | with_reducible exact Only.refl _ _
    | ((with_reducible apply Only.next (mountAt_only _ _ _)); · decide)
    | ((with_reducible apply Only.next (mountFail_only _ _)); · decide)
    | ((with_reducible apply Only.next (healthIn_only _ _ _)); · decide)
    | ((with_reducible apply Only.next (initLayout_only _)); · decide)
    | ((with_reducible apply Only.next (mountDone_only _)); · decide)
    | ((with_reducible apply Only.next (recovNext_only _ _ _)); · decide)
    | with_reducible apply Only.ite
    | split
    | ((with_reducible apply Only.mkThen)
       · intro p hp; cases p <;> first | exact absurd (by decide) hp | rfl | exact ⟨rfl, rfl⟩ | exact ⟨rfl, rfl, rfl, rfl, rfl⟩)
    | dsimp only

theorem readPair_only (slot : Nat) (m : Merge) (s : State) : Only [.irq, .arch] s (readPair slot m s) := by
  unfold readPair
  repeat' first
    | with_reducible exact Only.refl _ _
    | ((with_reducible apply Only.next (archRead_only _ _ _ _)); · decide)
    | with_reducible apply Only.ite
    | ((with_reducible apply Only.mkThen)
       · intro p hp; cases p <;> first | exact absurd (by decide) hp | rfl | exact ⟨rfl, rfl⟩ | exact ⟨rfl, rfl, rfl, rfl, rfl⟩)

theorem mergeDrop_only (s : State) : Only [.stk] s (mergeDrop s) := by
  unfold mergeDrop
  repeat' first
    | with_reducible exact Only.refl _ _
    | with_reducible apply Only.ite
    | ((with_reducible apply Only.mkThen)
       · intro p hp; cases p <;> first | exact absurd (by decide) hp | rfl | exact ⟨rfl, rfl⟩ | exact ⟨rfl, rfl, rfl, rfl, rfl⟩)

theorem mergeIn_only (slot : Nat) (m : Merge) (d : NvmeData) (s : State) : Only [.irq, .stk, .arch] s (mergeIn slot m d s) := by
  unfold mergeIn
  dsimp only
  repeat' first
    | with_reducible exact Only.refl _ _
    | ((with_reducible apply Only.next (archIssue_only _ _ _ _)); · decide)
    | ((with_reducible apply Only.next (flushNext_only _)); · decide)
    | with_reducible apply Only.ite
    | split
    | ((with_reducible apply Only.mkThen)
       · intro p hp; cases p <;> first | exact absurd (by decide) hp | rfl | exact ⟨rfl, rfl⟩ | exact ⟨rfl, rfl, rfl, rfl, rfl⟩)
    | dsimp only

theorem cmdDone_only (c : NvmeCmd) (d : NvmeData) (s : State) : Only [.free, .irq, .stk, .flash, .arch, .log] s (cmdDone c d s) := by
  unfold cmdDone
  dsimp only
  repeat' first
    | with_reducible exact Only.refl _ _
    | ((with_reducible apply Only.next (mountNext_only _ _ _ _)); · decide)
    | ((with_reducible apply Only.next (archIssue_only _ _ _ _)); · decide)
    | ((with_reducible apply Only.next (writeSuper_only _ _ _)); · decide)
    | ((with_reducible apply Only.next (readPair_only _ _ _)); · decide)
    | ((with_reducible apply Only.next (mergeDrop_only _)); · decide)
    | ((with_reducible apply Only.next (writeCheckpoint_only _ _)); · decide)
    | ((with_reducible apply Only.next (archIrq_only _)); · decide)
    | ((with_reducible apply Only.next (mergeIn_only _ _ _ _)); · decide)
    | ((with_reducible apply Only.next (healthIn_only _ _ _)); · decide)
    | with_reducible apply Only.each
    | intro _ _
    | with_reducible apply Only.ite
    | split
    | ((with_reducible apply Only.mkThen)
       · intro p hp; cases p <;> first | exact absurd (by decide) hp | rfl | exact ⟨rfl, rfl⟩ | exact ⟨rfl, rfl, rfl, rfl, rfl⟩)
    | dsimp only

theorem cmdNext_only (c : NvmeCmd) (d : NvmeData) (s : State) : Only [.free, .irq, .stk, .flash, .arch, .log] s (cmdNext c d s) := by
  unfold cmdNext
  dsimp only
  repeat' first
    | with_reducible exact Only.refl _ _
    | ((with_reducible apply Only.next (archCmd_only _ _ _ _ _ _)); · decide)
    | ((with_reducible apply Only.next (cmdDone_only _ _ _)); · decide)
    | with_reducible apply Only.ite
    | split
    | ((with_reducible apply Only.mkThen)
       · intro p hp; cases p <;> first | exact absurd (by decide) hp | rfl | exact ⟨rfl, rfl⟩ | exact ⟨rfl, rfl, rfl, rfl, rfl⟩)
    | dsimp only

theorem cmdFail_only (c : NvmeCmd) (timeout : Bool) (s : State) : Only [.free, .irq, .stk, .flash, .arch, .log] s (cmdFail c timeout s) := by
  unfold cmdFail
  dsimp only
  repeat' first
    | with_reducible exact Only.refl _ _
    | ((with_reducible apply Only.next (mountFail_only _ _)); · decide)
    | ((with_reducible apply Only.next (takeFree_only _ _)); · decide)
    | ((with_reducible apply Only.next (modRing_only _ _ _)); · decide)
    | ((with_reducible apply Only.next (cmdDone_only _ _ _)); · decide)
    | ((with_reducible apply Only.next (mergeDrop_only _)); · decide)
    | ((with_reducible apply Only.next (archIrq_only _)); · decide)
    | with_reducible apply Only.ite
    | split
    | ((with_reducible apply Only.mkThen)
       · intro p hp; cases p <;> first | exact absurd (by decide) hp | rfl | exact ⟨rfl, rfl⟩ | exact ⟨rfl, rfl, rfl, rfl, rfl⟩)
    | dsimp only

theorem takeCmd_only {cid : Nat} {s t : State} {c : NvmeCmd} (h : takeCmd cid s = some (c, t)) : Only [.arch] s t := by
  unfold takeCmd at h
  obtain ⟨x, -, hx⟩ := Option.map_eq_some_iff.mp h
  cases hx
  ((with_reducible apply Only.mkThen); · intro p hp; cases p <;> first | exact absurd (by decide) hp | rfl | exact ⟨rfl, rfl⟩ | exact ⟨rfl, rfl, rfl, rfl, rfl⟩)
  exact .refl _ _

theorem cmdError_only (c : NvmeCmd) (timeout again : Bool) (s : State) : Only [.free, .irq, .stk, .flash, .arch, .log, .fltQueue] s (cmdError c timeout again s) := by
  unfold cmdError
  dsimp only
  repeat' first
    | with_reducible exact Only.refl _ _
    | ((with_reducible apply Only.next (raiseOpen_only _ _ _)); · decide)
    | ((with_reducible apply Only.next (countBytes_only _ _)); · decide)
    | ((with_reducible apply Only.next (cmdFail_only _ _ _)); · decide)
    | with_reducible apply Only.ite
    | split
    | ((with_reducible apply Only.mkThen)
       · intro p hp; cases p <;> first | exact absurd (by decide) hp | rfl | exact ⟨rfl, rfl⟩ | exact ⟨rfl, rfl, rfl, rfl, rfl⟩)
    | dsimp only

theorem setStage_only (st : MountStage) (s : State) : Only [.arch] s (setStage st s) := by
  unfold setStage
  repeat' first
    | with_reducible exact Only.refl _ _
    | with_reducible apply Only.ite
    | ((with_reducible apply Only.mkThen)
       · intro p hp; cases p <;> first | exact absurd (by decide) hp | rfl | exact ⟨rfl, rfl⟩ | exact ⟨rfl, rfl, rfl, rfl, rfl⟩)

theorem archLinkLost_only (s : State) : Only [.irq, .stk, .arch] s (archLinkLost s) := by
  unfold archLinkLost
  dsimp only
  repeat' first
    | with_reducible exact Only.refl _ _
    | ((with_reducible apply Only.next (mountFail_only _ _)); · decide)
    | ((with_reducible apply Only.next (archSuspend_only _)); · decide)
    | with_reducible apply Only.ite
    | ((with_reducible apply Only.mkThen)
       · intro p hp; cases p <;> first | exact absurd (by decide) hp | rfl | exact ⟨rfl, rfl⟩ | exact ⟨rfl, rfl, rfl, rfl, rfl⟩)

theorem readHealth_only (s : State) : Only [.irq, .arch] s (readHealth s) := by
  unfold readHealth
  repeat' first
    | with_reducible exact Only.refl _ _
    | ((with_reducible apply Only.next (archIssue_only _ _ _ _)); · decide)
    | with_reducible apply Only.ite
    | ((with_reducible apply Only.mkThen)
       · intro p hp; cases p <;> first | exact absurd (by decide) hp | rfl | exact ⟨rfl, rfl⟩ | exact ⟨rfl, rfl, rfl, rfl, rfl⟩)

theorem archSwap_only (r0 : Rd) (s : State) : Only [.irq, .arch] s (archSwap r0 s) := by
  unfold archSwap
  dsimp only
  repeat' first
    | with_reducible exact Only.refl _ _
    | ((with_reducible apply Only.next (archIrq_only _)); · decide)
    | ((with_reducible apply Only.next (readHealth_only _)); · decide)
    | with_reducible apply Only.ite
    | ((with_reducible apply Only.mkThen)
       · intro p hp; cases p <;> first | exact absurd (by decide) hp | rfl | exact ⟨rfl, rfl⟩ | exact ⟨rfl, rfl, rfl, rfl, rfl⟩)

theorem archLaneState_only (q : Req) (s : State) : Only [.replies, .arch] s (archLaneState q s) := by
  unfold archLaneState
  dsimp only
  repeat' first
    | with_reducible exact Only.refl _ _
    | ((with_reducible apply Only.next (replyTo_only _ _ _ _ _)); · decide)
    | with_reducible apply Only.ite
    | ((with_reducible apply Only.mkThen)
       · intro p hp; cases p <;> first | exact absurd (by decide) hp | rfl | exact ⟨rfl, rfl⟩ | exact ⟨rfl, rfl, rfl, rfl, rfl⟩)

theorem archMount_only (q : Req) (s : State) : Only [.free, .stk, .replies, .arch] s (archMount q s) := by
  unfold archMount
  dsimp only
  repeat' first
    | with_reducible exact Only.refl _ _
    | ((with_reducible apply Only.next (takeFree_only _ _)); · decide)
    | ((with_reducible apply Only.next (replyTo_only _ _ _ _ _)); · decide)
    | ((with_reducible apply Only.next (dropWork_only _)); · decide)
    | with_reducible apply Only.ite
    | ((with_reducible apply Only.mkThen)
       · intro p hp; cases p <;> first | exact absurd (by decide) hp | rfl | exact ⟨rfl, rfl⟩ | exact ⟨rfl, rfl, rfl, rfl, rfl⟩)

theorem archStart_only (q : Req) (s : State) : Only [.replies, .arch] s (archStart q s) := by
  unfold archStart
  dsimp only
  repeat' first
    | with_reducible exact Only.refl _ _
    | ((with_reducible apply Only.next (replyTo_only _ _ _ _ _)); · decide)
    | with_reducible apply Only.ite
    | ((with_reducible apply Only.mkThen)
       · intro p hp; cases p <;> first | exact absurd (by decide) hp | rfl | exact ⟨rfl, rfl⟩ | exact ⟨rfl, rfl, rfl, rfl, rfl⟩)

theorem archStop_only (q : Req) (s : State) : Only [.irq, .replies, .arch] s (archStop q s) := by
  unfold archStop
  dsimp only
  repeat' first
    | with_reducible exact Only.refl _ _
    | ((with_reducible apply Only.next (replyTo_only _ _ _ _ _)); · decide)
    | ((with_reducible apply Only.next (writeChunk_only _ _)); · decide)
    | ((with_reducible apply Only.next (flushNext_only _)); · decide)
    | with_reducible apply Only.each
    | intro _ _
    | with_reducible apply Only.ite
    | ((with_reducible apply Only.mkThen)
       · intro p hp; cases p <;> first | exact absurd (by decide) hp | rfl | exact ⟨rfl, rfl⟩ | exact ⟨rfl, rfl, rfl, rfl, rfl⟩)

theorem archDomainOff_only (s : State) : Only [.stk, .arch] s (archDomainOff s) := by
  unfold archDomainOff
  dsimp only
  repeat' first
    | with_reducible exact Only.refl _ _
    | ((with_reducible apply Only.next (dropWork_only _)); · decide)
    | with_reducible apply Only.ite
    | ((with_reducible apply Only.mkThen)
       · intro p hp; cases p <;> first | exact absurd (by decide) hp | rfl | exact ⟨rfl, rfl⟩ | exact ⟨rfl, rfl, rfl, rfl, rfl⟩)

theorem archDomainUp_only (s : State) : Only [.arch] s (archDomainUp s) := by
  unfold archDomainUp
  repeat' first
    | with_reducible exact Only.refl _ _
    | with_reducible apply Only.ite
    | ((with_reducible apply Only.mkThen)
       · intro p hp; cases p <;> first | exact absurd (by decide) hp | rfl | exact ⟨rfl, rfl⟩ | exact ⟨rfl, rfl, rfl, rfl, rfl⟩)

/-! ### Faults -/

theorem fltCount_only (src inst : Nat) (s : State) : Only [.faults] s (fltCount src inst s) := by
  unfold fltCount
  dsimp only
  repeat' first
    | with_reducible exact Only.refl _ _
    | ((with_reducible apply Only.next (modFlt_only _ _ _ _)); · decide)
    | with_reducible apply Only.ite
    | ((with_reducible apply Only.mkThen)
       · intro p hp; cases p <;> first | exact absurd (by decide) hp | rfl | exact ⟨rfl, rfl⟩ | exact ⟨rfl, rfl, rfl, rfl, rfl⟩)

theorem lastingAction_only (src inst detail : Nat) (s : State) : Only [.free, .devState, .resume, .irq, .sys, .inhibit, .shots, .emits, .counts, .fire, .fronts, .samp, .eng, .stk, .hk, .axA, .axB, .replies, .items, .flash, .link, .arch, .casc, .log, .fltQueue] s (lastingAction src inst detail s) := by
  unfold lastingAction
  repeat' first
    | with_reducible exact Only.refl _ _
    | ((with_reducible apply Only.next (retireEngine_only _ _)); · decide)
    | ((with_reducible apply Only.next (degradeLane_only _ _)); · decide)
    | ((with_reducible apply Only.next (modFront_only _ _ _)); · decide)
    | ((with_reducible apply Only.next (modAxis_only _ _ _)); · decide)
    | ((with_reducible apply Only.next (archSuspend_only _)); · decide)
    | ((with_reducible apply Only.next (enterSafe_only _ _ _ _ _)); · decide)
    | with_reducible apply Only.ite
    | ((with_reducible apply Only.mkThen)
       · intro p hp; cases p <;> first | exact absurd (by decide) hp | rfl | exact ⟨rfl, rfl⟩ | exact ⟨rfl, rfl, rfl, rfl, rfl⟩)

theorem classify_only (src inst detail : Nat) (s : State) : Only [.free, .devState, .resume, .irq, .sys, .inhibit, .shots, .emits, .counts, .fire, .fronts, .samp, .eng, .stk, .hk, .axA, .axB, .replies, .items, .flash, .link, .arch, .casc, .log, .faults, .fltQueue] s (classify src inst detail s) := by
  unfold classify
  dsimp only
  repeat' first
    | with_reducible exact Only.refl _ _
    | ((with_reducible apply Only.next (logWrite_only _ _ _ _ _)); · decide)
    | ((with_reducible apply Only.next (fltCount_only _ _ _)); · decide)
    | ((with_reducible apply Only.next (lastingAction_only _ _ _ _)); · decide)
    | ((with_reducible apply Only.next (modFlt_only _ _ _ _)); · decide)
    | with_reducible apply Only.ite
    | ((with_reducible apply Only.mkThen)
       · intro p hp; cases p <;> first | exact absurd (by decide) hp | rfl | exact ⟨rfl, rfl⟩ | exact ⟨rfl, rfl, rfl, rfl, rfl⟩)

theorem fltSwap_only (r0 : Rd) (s : State) : Only [.faults] s (fltSwap r0 s) := by
  unfold fltSwap
  dsimp only
  repeat' first
    | with_reducible exact Only.refl _ _
    | with_reducible apply Only.ite
    | ((with_reducible apply Only.mkThen)
       · intro p hp; cases p <;> first | exact absurd (by decide) hp | rfl | exact ⟨rfl, rfl⟩ | exact ⟨rfl, rfl, rfl, rfl, rfl⟩)

theorem clearInst_only (src inst : Nat) (s : State) : Only [.irq, .fronts, .eng, .axA, .axB, .flash, .link, .log, .faults] s (clearInst src inst s) := by
  unfold clearInst
  dsimp only
  repeat' first
    | with_reducible exact Only.refl _ _
    | ((with_reducible apply Only.next (modFlt_only _ _ _ _)); · decide)
    | ((with_reducible apply Only.next (modEngine_only _ _ _)); · decide)
    | ((with_reducible apply Only.next (restoreLane_only _ _)); · decide)
    | ((with_reducible apply Only.next (modFront_only _ _ _)); · decide)
    | ((with_reducible apply Only.next (modAxis_only _ _ _)); · decide)
    | ((with_reducible apply Only.next (logWrite_only _ _ _ _ _)); · decide)
    | with_reducible apply Only.ite
    | ((with_reducible apply Only.mkThen)
       · intro p hp; cases p <;> first | exact absurd (by decide) hp | rfl | exact ⟨rfl, rfl⟩ | exact ⟨rfl, rfl, rfl, rfl, rfl⟩)

theorem faultClear_only (q : Req) (s : State) : Only [.irq, .fronts, .eng, .axA, .axB, .replies, .flash, .link, .log, .faults] s (faultClear q s) := by
  unfold faultClear
  dsimp only
  repeat' first
    | with_reducible exact Only.refl _ _
    | ((with_reducible apply Only.next (replyTo_only _ _ _ _ _)); · decide)
    | ((with_reducible apply Only.next (clearInst_only _ _ _)); · decide)
    | with_reducible apply Only.each
    | intro _ _
    | with_reducible apply Only.ite
    | ((with_reducible apply Only.mkThen)
       · intro p hp; cases p <;> first | exact absurd (by decide) hp | rfl | exact ⟨rfl, rfl⟩ | exact ⟨rfl, rfl, rfl, rfl, rfl⟩)

theorem faultRead_only (q : Req) (s : State) : Only [.replies] s (faultRead q s) := by
  unfold faultRead
  dsimp only
  repeat' first
    | with_reducible exact Only.refl _ _
    | ((with_reducible apply Only.next (replyTo_only _ _ _ _ _)); · decide)
    | with_reducible apply Only.ite
    | ((with_reducible apply Only.mkThen)
       · intro p hp; cases p <;> first | exact absurd (by decide) hp | rfl | exact ⟨rfl, rfl⟩ | exact ⟨rfl, rfl, rfl, rfl, rfl⟩)

/-! ### Boundary -/

theorem rangesSwap_only (r0 : Rd) (s : State) : Only [.fronts, .greys] s (rangesSwap r0 s) := by
  unfold rangesSwap
  dsimp only
  repeat' first
    | with_reducible exact Only.refl _ _
    | ((with_reducible apply Only.next (modFront_only _ _ _)); · decide)
    | ((with_reducible apply Only.next (setRange_only _ _ _)); · decide)
    | with_reducible apply Only.each
    | intro _ _
    | with_reducible apply Only.ite
    | ((with_reducible apply Only.mkThen)
       · intro p hp; cases p <;> first | exact absurd (by decide) hp | rfl | exact ⟨rfl, rfl⟩ | exact ⟨rfl, rfl, rfl, rfl, rfl⟩)

theorem fillHeader_only (s : State) : Only [.free, .counts, .fire] s (fillHeader s) := by
  unfold fillHeader
  dsimp only
  repeat' first
    | with_reducible exact Only.refl _ _
    | ((with_reducible apply Only.next (greyHeader_only _)); · decide)
    | with_reducible apply Only.ite
    | split
    | ((with_reducible apply Only.mkThen)
       · intro p hp; cases p <;> first | exact absurd (by decide) hp | rfl | exact ⟨rfl, rfl⟩ | exact ⟨rfl, rfl, rfl, rfl, rfl⟩)
    | dsimp only

theorem frameBegins_only (s : State) : Only [.sys, .fire, .eng, .items] s (frameBegins s) := by
  unfold frameBegins
  dsimp only
  repeat' first
    | with_reducible exact Only.refl _ _
    | ((with_reducible apply Only.next (putItem_only _ _ _)); · decide)
    | with_reducible apply Only.ite
    | split
    | ((with_reducible apply Only.mkThen)
       · intro p hp; cases p <;> first | exact absurd (by decide) hp | rfl | exact ⟨rfl, rfl⟩ | exact ⟨rfl, rfl, rfl, rfl, rfl⟩)
    | dsimp only

theorem zoneSwap_only (r0 : Rd) (s : State) : Only [.zone] s (zoneSwap r0 s) := by
  unfold zoneSwap
  dsimp only
  repeat' first
    | with_reducible exact Only.refl _ _
    | with_reducible apply Only.ite
    | ((with_reducible apply Only.mkThen)
       · intro p hp; cases p <;> first | exact absurd (by decide) hp | rfl | exact ⟨rfl, rfl⟩ | exact ⟨rfl, rfl, rfl, rfl, rfl⟩)

theorem coreSwap_only (r0 : Rd) (s : State) : Only [.free, .sys, .cfg, .shots, .emits, .counts, .fire, .zone, .eng, .greys, .stk, .items, .link, .arch, .upd] s (coreSwap r0 s) := by
  unfold coreSwap
  dsimp only
  repeat' first
    | with_reducible exact Only.refl _ _
    | ((with_reducible apply Only.next (stkBoundary_only _ _)); · decide)
    | ((with_reducible apply Only.next (greyBoundary_only _ _)); · decide)
    | ((with_reducible apply Only.next (frameBegins_only _)); · decide)
    | ((with_reducible apply Only.next (dwellSwap_only _)); · decide)
    | ((with_reducible apply Only.next (microSwap_only _)); · decide)
    | ((with_reducible apply Only.next (gridSwap_only _ _)); · decide)
    | ((with_reducible apply Only.next (zoneSwap_only _ _)); · decide)
    | ((with_reducible apply Only.next (fillHeader_only _)); · decide)
    | with_reducible apply Only.ite
    | ((with_reducible apply Only.mkThen)
       · intro p hp; cases p <;> first | exact absurd (by decide) hp | rfl | exact ⟨rfl, rfl⟩ | exact ⟨rfl, rfl, rfl, rfl, rfl⟩)

theorem swapHook_only (d : ClkDom) (r0 : Rd) (s : State) : Only [.free, .irq, .sys, .cfg, .shots, .emits, .counts, .fire, .fronts, .zone, .eng, .greys, .stk, .hk, .axA, .axB, .replies, .items, .link, .arch, .upd, .faults] s (swapHook d r0 s) := by
  unfold swapHook
  repeat' first
    | with_reducible exact Only.refl _ _
    | ((with_reducible apply Only.next (fltSwap_only _ _)); · decide)
    | ((with_reducible apply Only.next (rangesSwap_only _ _)); · decide)
    | ((with_reducible apply Only.next (coreSwap_only _ _)); · decide)
    | ((with_reducible apply Only.next (linkSwap_only _ _)); · decide)
    | ((with_reducible apply Only.next (archSwap_only _ _)); · decide)
    | ((with_reducible apply Only.next (hkSwap_only _ _)); · decide)
    | with_reducible apply Only.ite
    | split
    | ((with_reducible apply Only.mkThen)
       · intro p hp; cases p <;> first | exact absurd (by decide) hp | rfl | exact ⟨rfl, rfl⟩ | exact ⟨rfl, rfl, rfl, rfl, rfl⟩)
    | dsimp only

theorem crossDom_only (d : ClkDom) (s : State) : Only [.free, .irq, .sys, .cfg, .shots, .emits, .counts, .fire, .fronts, .zone, .eng, .greys, .stk, .hk, .axA, .axB, .replies, .items, .link, .arch, .upd, .faults] s (crossDom d s) := by
  unfold crossDom
  repeat' first
    | with_reducible exact Only.refl _ _
    | ((with_reducible apply Only.next (swapHook_only _ _ _)); · decide)
    | ((with_reducible apply Only.next (crossed_only _ _ _ _)); · decide)
    | with_reducible apply Only.ite
    | ((with_reducible apply Only.mkThen)
       · intro p hp; cases p <;> first | exact absurd (by decide) hp | rfl | exact ⟨rfl, rfl⟩ | exact ⟨rfl, rfl, rfl, rfl, rfl⟩)

theorem lastAck_only (s : State) : Only [.irq, .sys, .cfg, .fronts] s (lastAck s) := by
  unfold lastAck
  dsimp only
  repeat' first
    | with_reducible exact Only.refl _ _
    | ((with_reducible apply Only.next (crossed_only _ _ _ _)); · decide)
    | ((with_reducible apply Only.next (irq_only _ _)); · decide)
    | with_reducible apply Only.ite
    | split
    | ((with_reducible apply Only.mkThen)
       · intro p hp; cases p <;> first | exact absurd (by decide) hp | rfl | exact ⟨rfl, rfl⟩ | exact ⟨rfl, rfl, rfl, rfl, rfl⟩)
    | dsimp only

theorem fixSet_only (s : State) : Only [.cfg] s (fixSet s) := by
  unfold fixSet
  dsimp only
  repeat' first
    | with_reducible exact Only.refl _ _
    | with_reducible apply Only.ite
    | split
    | ((with_reducible apply Only.mkThen)
       · intro p hp; cases p <;> first | exact absurd (by decide) hp | rfl | exact ⟨rfl, rfl⟩ | exact ⟨rfl, rfl, rfl, rfl, rfl⟩)
    | dsimp only

theorem sendToken_only (s : State) : Only [.free, .irq, .sys, .cfg, .shots, .emits, .counts, .fire, .fronts, .zone, .eng, .greys, .stk, .hk, .axA, .axB, .replies, .items, .link, .arch, .upd, .faults] s (sendToken s) := by
  unfold sendToken
  dsimp only
  repeat' first
    | with_reducible exact Only.refl _ _
    | ((with_reducible apply Only.next (crossed_only _ _ _ _)); · decide)
    | ((with_reducible apply Only.next (crossDom_only _ _)); · decide)
    | with_reducible apply Only.each
    | intro _ _
    | with_reducible apply Only.ite
    | ((with_reducible apply Only.mkThen)
       · intro p hp; cases p <;> first | exact absurd (by decide) hp | rfl | exact ⟨rfl, rfl⟩ | exact ⟨rfl, rfl, rfl, rfl, rfl⟩)

theorem finishToken_only (s : State) : Only [.free, .irq, .sys, .cfg, .shots, .emits, .counts, .fire, .fronts, .zone, .eng, .greys, .stk, .hk, .axA, .axB, .replies, .items, .link, .arch, .upd, .faults] s (finishToken s) := by
  unfold finishToken
  repeat' first
    | with_reducible exact Only.refl _ _
    | ((with_reducible apply Only.next (lastAck_only _)); · decide)
    | ((with_reducible apply Only.next (crossDom_only _ _)); · decide)
    | with_reducible apply Only.each
    | intro _ _
    | with_reducible apply Only.ite
    | ((with_reducible apply Only.mkThen)
       · intro p hp; cases p <;> first | exact absurd (by decide) hp | rfl | exact ⟨rfl, rfl⟩ | exact ⟨rfl, rfl, rfl, rfl, rfl⟩)

theorem plainToken_only (s : State) : Only [.fire] s (plainToken s) := by
  unfold plainToken
  repeat' first
    | with_reducible exact Only.refl _ _
    | with_reducible apply Only.ite
    | ((with_reducible apply Only.mkThen)
       · intro p hp; cases p <;> first | exact absurd (by decide) hp | rfl | exact ⟨rfl, rfl⟩ | exact ⟨rfl, rfl, rfl, rfl, rfl⟩)

theorem applyNow_only (s : State) : Only [.free, .irq, .sys, .cfg, .shots, .emits, .counts, .fire, .fronts, .zone, .eng, .greys, .stk, .hk, .axA, .axB, .replies, .items, .link, .arch, .upd, .faults] s (applyNow s) := by
  unfold applyNow
  dsimp only
  repeat' first
    | with_reducible exact Only.refl _ _
    | ((with_reducible apply Only.next (finishToken_only _)); · decide)
    | ((with_reducible apply Only.next (sendToken_only _)); · decide)
    | ((with_reducible apply Only.next (fixSet_only _)); · decide)
    | ((with_reducible apply Only.next (plainToken_only _)); · decide)
    | with_reducible apply Only.ite
    | ((with_reducible apply Only.mkThen)
       · intro p hp; cases p <;> first | exact absurd (by decide) hp | rfl | exact ⟨rfl, rfl⟩ | exact ⟨rfl, rfl, rfl, rfl, rfl⟩)

theorem waitsEnd_only (s : State) : Only [.irq, .fronts, .cal, .hk, .axA, .axB, .flashOp, .flash] s (waitsEnd s) := by
  unfold waitsEnd
  dsimp only
  repeat' first
    | with_reducible exact Only.refl _ _
    | ((with_reducible apply Only.next (crossed_only _ _ _ _)); · decide)
    | ((with_reducible apply Only.next (calAtOnce_only _ _)); · decide)
    | with_reducible apply Only.each
    | intro _ _
    | with_reducible apply Only.ite
    | ((with_reducible apply Only.mkThen)
       · intro p hp; cases p <;> first | exact absurd (by decide) hp | rfl | exact ⟨rfl, rfl⟩ | exact ⟨rfl, rfl, rfl, rfl, rfl⟩)

theorem enterIdle_only (s : State) : Only [.free, .devState, .resume, .irq, .sys, .cfg, .shots, .emits, .counts, .fire, .fronts, .zone, .eng, .greys, .stk, .cal, .hk, .axA, .axB, .replies, .items, .flashOp, .flash, .link, .arch, .upd, .faults] s (enterIdle s) := by
  unfold enterIdle
  repeat' first
    | with_reducible exact Only.refl _ _
    | ((with_reducible apply Only.next (waitsEnd_only _)); · decide)
    | ((with_reducible apply Only.next (applyNow_only _)); · decide)
    | ((with_reducible apply Only.next (setOp_only _ _)); · decide)
    | with_reducible apply Only.ite
    | ((with_reducible apply Only.mkThen)
       · intro p hp; cases p <;> first | exact absurd (by decide) hp | rfl | exact ⟨rfl, rfl⟩ | exact ⟨rfl, rfl, rfl, rfl, rfl⟩)

theorem runEntry_only (tf : Nat) (s : State) : Only [.emits, .fire] s (runEntry tf s) := by
  unfold runEntry
  repeat' first
    | with_reducible exact Only.refl _ _
    | with_reducible apply Only.ite
    | ((with_reducible apply Only.mkThen)
       · intro p hp; cases p <;> first | exact absurd (by decide) hp | rfl | exact ⟨rfl, rfl⟩ | exact ⟨rfl, rfl, rfl, rfl, rfl⟩)

theorem stopFrames_only (s : State) : Only [.shots, .fire, .stk] s (stopFrames s) := by
  unfold stopFrames
  repeat' first
    | with_reducible exact Only.refl _ _
    | ((with_reducible apply Only.next (discardStacks_only _ _)); · decide)
    | with_reducible apply Only.ite
    | ((with_reducible apply Only.mkThen)
       · intro p hp; cases p <;> first | exact absurd (by decide) hp | rfl | exact ⟨rfl, rfl⟩ | exact ⟨rfl, rfl, rfl, rfl, rfl⟩)

theorem gapWork_only (s : State) : Only [.free, .irq, .fire, .fronts, .greys, .cal, .hk, .flashOp, .flash, .link, .arch] s (gapWork s) := by
  unfold gapWork
  repeat' first
    | with_reducible exact Only.refl _ _
    | ((with_reducible apply Only.next (applyRange_only _ _)); · decide)
    | ((with_reducible apply Only.next (calBoundary_only _)); · decide)
    | ((with_reducible apply Only.next (sendHeader_only _ _)); · decide)
    | with_reducible apply Only.each
    | intro _ _
    | with_reducible apply Only.ite
    | split
    | ((with_reducible apply Only.mkThen)
       · intro p hp; cases p <;> first | exact absurd (by decide) hp | rfl | exact ⟨rfl, rfl⟩ | exact ⟨rfl, rfl, rfl, rfl, rfl⟩)
    | dsimp only

theorem openGap_only (x : GapAt) (s : State) : Only [.free, .irq, .sys, .cfg, .shots, .emits, .counts, .fire, .fronts, .zone, .eng, .greys, .stk, .cal, .hk, .axA, .axB, .replies, .items, .flashOp, .flash, .link, .arch, .casc, .upd, .faults] s (openGap x s) := by
  unfold openGap
  have h1 : Only [.free, .irq, .sys, .cfg, .shots, .emits, .counts, .fire, .fronts, .zone, .eng, .greys, .stk, .cal, .hk, .axA, .axB, .replies, .items, .flashOp, .flash, .link, .arch, .casc, .upd, .faults] s (gapWork s) := (gapWork_only _).weaken
  generalize gapWork s = s1 at h1 ⊢
  dsimp only
  repeat' first
    | with_reducible exact h1
    | ((with_reducible apply Only.next (frameDelays_only _ _)); · decide)
    | ((with_reducible apply Only.next (stopFrames_only _)); · decide)
    | ((with_reducible apply Only.next (runEntry_only _ _)); · decide)
    | ((with_reducible apply Only.next (sendToken_only _)); · decide)
    | ((with_reducible apply Only.next (fixSet_only _)); · decide)
    | with_reducible apply Only.ite
    | ((with_reducible apply Only.mkThen); · intro p hp; cases p <;> first | exact absurd (by decide) hp | rfl | exact ⟨rfl, rfl⟩ | exact ⟨rfl, rfl, rfl, rfl, rfl⟩)

theorem pendingState_only (s : State) : Only [.devState, .resume, .irq, .sys] s (pendingState s) := by
  unfold pendingState
  repeat' first
    | with_reducible exact Only.refl _ _
    | ((with_reducible apply Only.next (setOp_only _ _)); · decide)
    | with_reducible apply Only.ite
    | ((with_reducible apply Only.mkThen)
       · intro p hp; cases p <;> first | exact absurd (by decide) hp | rfl | exact ⟨rfl, rfl⟩ | exact ⟨rfl, rfl, rfl, rfl, rfl⟩)

theorem closeGap_only (g tf frame : Nat) (forced limit : Bool) (s : State) : Only [.free, .devState, .resume, .irq, .sys, .cfg, .shots, .emits, .counts, .fire, .fronts, .zone, .eng, .greys, .stk, .cal, .hk, .axA, .axB, .replies, .items, .flashOp, .flash, .link, .arch, .casc, .upd, .faults] s (closeGap g tf frame forced limit s) := by
  unfold closeGap
  dsimp only
  repeat' first
    | with_reducible exact Only.refl _ _
    | ((with_reducible apply Only.next (pendingState_only _)); · decide)
    | ((with_reducible apply Only.next (openGap_only _ _)); · decide)
    | with_reducible apply Only.ite
    | ((with_reducible apply Only.mkThen)
       · intro p hp; cases p <;> first | exact absurd (by decide) hp | rfl | exact ⟨rfl, rfl⟩ | exact ⟨rfl, rfl, rfl, rfl, rfl⟩)

theorem firstGap_only (g : Nat) (s : State) : Only [.free, .devState, .resume, .irq, .sys, .cfg, .shots, .emits, .counts, .fire, .fronts, .zone, .eng, .greys, .stk, .cal, .hk, .axA, .axB, .replies, .items, .flashOp, .flash, .link, .arch, .casc, .upd, .faults] s (firstGap g s) := by
  unfold firstGap
  dsimp only
  repeat' first
    | with_reducible exact Only.refl _ _
    | ((with_reducible apply Only.next (openGap_only _ _)); · decide)
    | ((with_reducible apply Only.next (ringSend_only _ _)); · decide)
    | ((with_reducible apply Only.next (pendingState_only _)); · decide)
    | with_reducible apply Only.ite
    | ((with_reducible apply Only.mkThen)
       · intro p hp; cases p <;> first | exact absurd (by decide) hp | rfl | exact ⟨rfl, rfl⟩ | exact ⟨rfl, rfl, rfl, rfl, rfl⟩)

theorem crossTimes_only (base : Nat) (s : State) : Only [.fire] s (crossTimes base s) := by
  unfold crossTimes
  repeat' first
    | with_reducible exact Only.refl _ _
    | with_reducible apply Only.ite
    | ((with_reducible apply Only.mkThen)
       · intro p hp; cases p <;> first | exact absurd (by decide) hp | rfl | exact ⟨rfl, rfl⟩ | exact ⟨rfl, rfl, rfl, rfl, rfl⟩)

theorem crossDefers_only (s : State) : Only [.sys, .counts, .fire] s (crossDefers s) := by
  unfold crossDefers
  repeat' first
    | with_reducible exact Only.refl _ _
    | ((with_reducible apply Only.next (deferFrame_only _)); · decide)
    | with_reducible apply Only.ite
    | split
    | ((with_reducible apply Only.mkThen)
       · intro p hp; cases p <;> first | exact absurd (by decide) hp | rfl | exact ⟨rfl, rfl⟩ | exact ⟨rfl, rfl, rfl, rfl, rfl⟩)
    | dsimp only

/-! ### Cascade -/

theorem failForwards_only (timedOut : Bool) (s : State) : Only [.sys, .replies, .port, .link, .casc] s (failForwards timedOut s) := by
  unfold failForwards
  dsimp only
  repeat' first
    | with_reducible exact Only.refl _ _
    | ((with_reducible apply Only.next (settle_only _)); · decide)
    | with_reducible apply Only.ite
    | ((with_reducible apply Only.mkThen)
       · intro p hp; cases p <;> first | exact absurd (by decide) hp | rfl | exact ⟨rfl, rfl⟩ | exact ⟨rfl, rfl, rfl, rfl, rfl⟩)

theorem failConfirm_only (s : State) : Only [.replies, .casc, .upd] s (failConfirm s) := by
  unfold failConfirm
  repeat' first
    | with_reducible exact Only.refl _ _
    | ((with_reducible apply Only.next (replyTo_only _ _ _ _ _)); · decide)
    | with_reducible apply Only.ite
    | split
    | ((with_reducible apply Only.mkThen)
       · intro p hp; cases p <;> first | exact absurd (by decide) hp | rfl | exact ⟨rfl, rfl⟩ | exact ⟨rfl, rfl, rfl, rfl, rfl⟩)
    | dsimp only

theorem ringDown_only (s : State) : Only [.sys, .replies, .port, .link, .casc, .upd] s (ringDown s) := by
  unfold ringDown
  repeat' first
    | with_reducible exact Only.refl _ _
    | ((with_reducible apply Only.next (failForwards_only _ _)); · decide)
    | ((with_reducible apply Only.next (failConfirm_only _)); · decide)
    | with_reducible apply Only.ite
    | ((with_reducible apply Only.mkThen)
       · intro p hp; cases p <;> first | exact absurd (by decide) hp | rfl | exact ⟨rfl, rfl⟩ | exact ⟨rfl, rfl, rfl, rfl, rfl⟩)

theorem slaveLoss_only (s : State) : Only [.free, .devState, .resume, .irq, .sys, .inhibit, .shots, .emits, .counts, .fire, .fronts, .samp, .stk, .hk, .axA, .axB, .replies, .flash, .casc, .log, .fltQueue] s (slaveLoss s) := by
  unfold slaveLoss
  dsimp only
  repeat' first
    | with_reducible exact Only.refl _ _
    | ((with_reducible apply Only.next (ringSend_only _ _)); · decide)
    | ((with_reducible apply Only.next (takeFree_only _ _)); · decide)
    | ((with_reducible apply Only.next (protective_only _ _ _ _)); · decide)
    | with_reducible apply Only.ite
    | ((with_reducible apply Only.mkThen)
       · intro p hp; cases p <;> first | exact absurd (by decide) hp | rfl | exact ⟨rfl, rfl⟩ | exact ⟨rfl, rfl, rfl, rfl, rfl⟩)

theorem sendEnum_only (s : State) : Only [.casc] s (sendEnum s) := by
  unfold sendEnum
  repeat' first
    | with_reducible exact Only.refl _ _
    | ((with_reducible apply Only.next (ringSend_only _ _)); · decide)
    | with_reducible apply Only.ite
    | ((with_reducible apply Only.mkThen)
       · intro p hp; cases p <;> first | exact absurd (by decide) hp | rfl | exact ⟨rfl, rfl⟩ | exact ⟨rfl, rfl, rfl, rfl, rfl⟩)

theorem endEnum_only (st : Nat) (words : List Word) (s : State) : Only [.irq, .sys, .replies, .port, .link, .casc] s (endEnum st words s) := by
  unfold endEnum
  dsimp only
  repeat' first
    | with_reducible exact Only.refl _ _
    | ((with_reducible apply Only.next (settle_only _)); · decide)
    | ((with_reducible apply Only.next (irq_only _ _)); · decide)
    | ((with_reducible apply Only.next (replyTo_only _ _ _ _ _)); · decide)
    | with_reducible apply Only.ite
    | split
    | ((with_reducible apply Only.mkThen)
       · intro p hp; cases p <;> first | exact absurd (by decide) hp | rfl | exact ⟨rfl, rfl⟩ | exact ⟨rfl, rfl, rfl, rfl, rfl⟩)
    | dsimp only

theorem ackTimeSet_only (sender : Nat) (s : State) : Only [.sys, .casc] s (ackTimeSet sender s) := by
  unfold ackTimeSet
  dsimp only
  repeat' first
    | with_reducible exact Only.refl _ _
    | with_reducible apply Only.ite
    | split
    | ((with_reducible apply Only.mkThen)
       · intro p hp; cases p <;> first | exact absurd (by decide) hp | rfl | exact ⟨rfl, rfl⟩ | exact ⟨rfl, rfl, rfl, rfl, rfl⟩)
    | dsimp only

theorem loadTime_only (v : Nat) (s : State) : Only [.time, .sys, .shots, .fronts, .samp, .cal, .axA, .axB, .casc] s (loadTime v s) := by
  unfold loadTime
  dsimp only
  repeat' first
    | with_reducible exact Only.refl _ _
    | with_reducible apply Only.ite
    | ((with_reducible apply Only.mkThen)
       · intro p hp; cases p <;> first | exact absurd (by decide) hp | rfl | exact ⟨rfl, rfl⟩ | exact ⟨rfl, rfl, rfl, rfl, rfl⟩)

theorem markDone_only (e : SchedEvent) (s : State) : Only [.casc] s (markDone e s) := by
  unfold markDone
  repeat' first
    | with_reducible exact Only.refl _ _
    | with_reducible apply Only.ite
    | ((with_reducible apply Only.mkThen)
       · intro p hp; cases p <;> first | exact absurd (by decide) hp | rfl | exact ⟨rfl, rfl⟩ | exact ⟨rfl, rfl, rfl, rfl, rfl⟩)

theorem schedLost_only (ev : SchedEvent) (s : State) : Only [.free, .devState, .resume, .irq, .sys, .inhibit, .shots, .emits, .counts, .fire, .fronts, .samp, .stk, .hk, .axA, .axB, .replies, .flash, .casc, .log, .fltQueue] s (schedLost ev s) := by
  unfold schedLost
  dsimp only
  repeat' first
    | with_reducible exact Only.refl _ _
    | ((with_reducible apply Only.next (slaveLoss_only _)); · decide)
    | with_reducible apply Only.ite
    | ((with_reducible apply Only.mkThen)
       · intro p hp; cases p <;> first | exact absurd (by decide) hp | rfl | exact ⟨rfl, rfl⟩ | exact ⟨rfl, rfl, rfl, rfl, rfl⟩)

theorem crossOne_only (act arrival : Nat) (e : Nat) (s : State) : Only [.free, .emits, .counts, .fire, .items, .link, .arch] s (crossOne act arrival e s) := by
  unfold crossOne
  dsimp only
  repeat' first
    | with_reducible exact Only.refl _ _
    | ((with_reducible apply Only.next (countNominal_only _ _ _ _)); · decide)
    | ((with_reducible apply Only.next (modEmit_only _ _ _)); · decide)
    | with_reducible apply Only.ite
    | ((with_reducible apply Only.mkThen)
       · intro p hp; cases p <;> first | exact absurd (by decide) hp | rfl | exact ⟨rfl, rfl⟩ | exact ⟨rfl, rfl, rfl, rfl, rfl⟩)

theorem ringReply_only (src : Nat) (b : List Byte) (s : State) : Only [.sys, .replies, .port, .link, .casc] s (ringReply src b s) := by
  unfold ringReply
  dsimp only
  repeat' first
    | with_reducible exact Only.refl _ _
    | ((with_reducible apply Only.next (settle_only _)); · decide)
    | with_reducible apply Only.ite
    | ((with_reducible apply Only.mkThen)
       · intro p hp; cases p <;> first | exact absurd (by decide) hp | rfl | exact ⟨rfl, rfl⟩ | exact ⟨rfl, rfl, rfl, rfl, rfl⟩)

theorem ringPacketIn_only (src : Nat) (b : List Byte) (s : State) : Only [.sys, .replies, .port, .link, .casc] s (ringPacketIn src b s) := by
  unfold ringPacketIn
  repeat' first
    | with_reducible exact Only.refl _ _
    | ((with_reducible apply Only.next (ringReply_only _ _ _)); · decide)
    | ((with_reducible apply Only.next (settle_only _)); · decide)
    | ((with_reducible apply Only.next (bufPacket_only _ _ _)); · decide)
    | with_reducible apply Only.ite
    | ((with_reducible apply Only.mkThen)
       · intro p hp; cases p <;> first | exact absurd (by decide) hp | rfl | exact ⟨rfl, rfl⟩ | exact ⟨rfl, rfl, rfl, rfl, rfl⟩)

/-! ### Power -/

theorem dropStream_only (v size at_ : Nat) (gone : Nat → Bool) (s : State) : Only [.shots, .counts, .eng, .link] s (dropStream v size at_ gone s) := by
  unfold dropStream
  dsimp only
  repeat' first
    | with_reducible exact Only.refl _ _
    | ((with_reducible apply Only.next (noteLoss_only _ _ _)); · decide)
    | ((with_reducible apply Only.next (hdrLost_only _)); · decide)
    | with_reducible apply Only.each
    | intro _ _
    | with_reducible apply Only.ite
    | ((with_reducible apply Only.mkThen)
       · intro p hp; cases p <;> first | exact absurd (by decide) hp | rfl | exact ⟨rfl, rfl⟩ | exact ⟨rfl, rfl, rfl, rfl, rfl⟩)

theorem shedBank_only (b : Nat) (s : State) : Only [.shots, .counts, .samp, .eng, .items] s (shedBank b s) := by
  unfold shedBank
  dsimp only
  repeat' first
    | with_reducible exact Only.refl _ _
    | ((with_reducible apply Only.next (noteLoss_only _ _ _)); · decide)
    | ((with_reducible apply Only.next (hdrShed_only _)); · decide)
    | ((with_reducible apply Only.next (modEngCh_only _ _ _)); · decide)
    | with_reducible apply Only.each
    | intro _ _
    | with_reducible apply Only.ite
    | ((with_reducible apply Only.mkThen)
       · intro p hp; cases p <;> first | exact absurd (by decide) hp | rfl | exact ⟨rfl, rfl⟩ | exact ⟨rfl, rfl, rfl, rfl, rfl⟩)

theorem clearFronts_only (cs : List Nat) (s : State) : Only [.fronts, .zone] s (clearFronts cs s) := by
  unfold clearFronts
  repeat' first
    | with_reducible exact Only.refl _ _
    | with_reducible apply Only.ite
    | ((with_reducible apply Only.mkThen)
       · intro p hp; cases p <;> first | exact absurd (by decide) hp | rfl | exact ⟨rfl, rfl⟩ | exact ⟨rfl, rfl, rfl, rfl, rfl⟩)

theorem bankOff_only (b : Nat) (s : State) : Only [.shots, .counts, .fronts, .zone, .samp, .eng, .cal, .items] s (bankOff b s) := by
  unfold bankOff
  repeat' first
    | with_reducible exact Only.refl _ _
    | ((with_reducible apply Only.next (calDomainOff_only _ _)); · decide)
    | ((with_reducible apply Only.next (clearFronts_only _ _)); · decide)
    | ((with_reducible apply Only.next (shedBank_only _ _)); · decide)
    | with_reducible apply Only.ite
    | ((with_reducible apply Only.mkThen)
       · intro p hp; cases p <;> first | exact absurd (by decide) hp | rfl | exact ⟨rfl, rfl⟩ | exact ⟨rfl, rfl, rfl, rfl, rfl⟩)

theorem drainTask_only (t : Task) (s : State) : Only [.shots, .emits, .counts, .eng, .stk] s (drainTask t s) := by
  unfold drainTask
  repeat' first
    | with_reducible exact Only.refl _ _
    | ((with_reducible apply Only.next (startLost_only _ _)); · decide)
    | ((with_reducible apply Only.next (modShot_only _ _ _)); · decide)
    | ((with_reducible apply Only.next (countDone_only _ _)); · decide)
    | ((with_reducible apply Only.next (lateWindow_only _ _ _)); · decide)
    | with_reducible apply Only.ite
    | split
    | ((with_reducible apply Only.mkThen)
       · intro p hp; cases p <;> first | exact absurd (by decide) hp | rfl | exact ⟨rfl, rfl⟩ | exact ⟨rfl, rfl, rfl, rfl, rfl⟩)
    | dsimp only

theorem lastSlice_only (s : State) : Only [.shots, .emits, .counts, .eng, .stk, .items] s (lastSlice s) := by
  unfold lastSlice
  dsimp only
  repeat' first
    | with_reducible exact Only.refl _ _
    | ((with_reducible apply Only.next (hdrShed_only _)); · decide)
    | ((with_reducible apply Only.next (drainTask_only _ _)); · decide)
    | ((with_reducible apply Only.next (modShots_only _ _)); · decide)
    | with_reducible apply Only.each
    | intro _ _
    | with_reducible apply Only.ite
    | ((with_reducible apply Only.mkThen)
       · intro p hp; cases p <;> first | exact absurd (by decide) hp | rfl | exact ⟨rfl, rfl⟩ | exact ⟨rfl, rfl, rfl, rfl, rfl⟩)

theorem quarterOff_only (q : Nat) (s : State) : Only [.shots, .emits, .counts, .eng, .stk, .items, .link, .pwr] s (quarterOff q s) := by
  unfold quarterOff
  dsimp only
  repeat' first
    | with_reducible exact Only.refl _ _
    | ((with_reducible apply Only.next (dropStream_only _ _ _ _ _)); · decide)
    | ((with_reducible apply Only.next (modEngine_only _ _ _)); · decide)
    | ((with_reducible apply Only.next (drainTask_only _ _)); · decide)
    | ((with_reducible apply Only.next (noteFull_only _)); · decide)
    | ((with_reducible apply Only.next (lastSlice_only _)); · decide)
    | with_reducible apply Only.each
    | intro _ _
    | with_reducible apply Only.ite
    | ((with_reducible apply Only.mkThen)
       · intro p hp; cases p <;> first | exact absurd (by decide) hp | (dsimp only [StatePart.same]; done) | (dsimp only [StatePart.same]; rfl) | (dsimp only [StatePart.same]; exact ⟨rfl, rfl⟩) | (dsimp only [StatePart.same]; exact ⟨rfl, rfl, rfl, rfl, rfl⟩))

theorem timeOff_only (s : State) : Only [.free, .irq, .sys, .cfg, .shots, .emits, .counts, .fire, .fronts, .zone, .samp, .eng, .greys, .stk, .cal, .hk, .axA, .axB, .replies, .items, .port, .link, .arch, .casc, .upd, .faults] s (timeOff s) := by
  unfold timeOff
  dsimp only
  have h1 : Only [.free, .irq, .sys, .cfg, .shots, .emits, .counts, .fire, .fronts, .zone, .samp, .eng, .greys, .stk, .cal, .hk, .axA, .axB, .replies, .items, .port, .link, .arch, .casc, .upd, .faults] s (calDomainOff 8 (clearFronts (upto 256 4) (ringDown (finishToken s)))) :=
    .andThen (calDomainOff_only _ _) (.andThen (clearFronts_only _ _) (.andThen (ringDown_only _) (.andThen (finishToken_only _) (.refl _ _))))
  generalize calDomainOff 8 (clearFronts (upto 256 4) (ringDown (finishToken s))) = s1 at h1 ⊢
  ((with_reducible apply Only.mkThen); · intro p hp; cases p <;> first | exact absurd (by decide) hp | rfl | exact ⟨rfl, rfl⟩ | exact ⟨rfl, rfl, rfl, rfl, rfl⟩)
  exact h1

theorem hkOff_only (s : State) : Only [.sys, .cal, .hk] s (hkOff s) := by
  unfold hkOff
  repeat' first
    | with_reducible exact Only.refl _ _
    | ((with_reducible apply Only.next (tempHoldNow_only _)); · decide)
    | ((with_reducible apply Only.next (modCalGrp_only _ _ _)); · decide)
    | ((with_reducible apply Only.next (hkPowerDown_only _)); · decide)
    | with_reducible apply Only.each
    | intro _ _
    | with_reducible apply Only.ite
    | ((with_reducible apply Only.mkThen)
       · intro p hp; cases p <;> first | exact absurd (by decide) hp | rfl | exact ⟨rfl, rfl⟩ | exact ⟨rfl, rfl, rfl, rfl, rfl⟩)

theorem steerOff_only (s : State) : Only [.hk, .axA, .axB] s (steerOff s) := by
  unfold steerOff
  dsimp only
  repeat' first
    | with_reducible exact Only.refl _ _
    | ((with_reducible apply Only.next (pwmGone_only _)); · decide)
    | with_reducible apply Only.ite
    | ((with_reducible apply Only.mkThen)
       · intro p hp; cases p <;> first | exact absurd (by decide) hp | rfl | exact ⟨rfl, rfl⟩ | exact ⟨rfl, rfl, rfl, rfl, rfl⟩)

theorem domainOff_only (d : Nat) (s : State) : Only [.free, .irq, .sys, .cfg, .shots, .emits, .counts, .fire, .fronts, .zone, .samp, .eng, .greys, .stk, .cal, .hk, .axA, .axB, .replies, .items, .port, .link, .arch, .casc, .pwr, .upd, .faults] s (domainOff d s) := by
  unfold domainOff
  dsimp only
  repeat' first
    | with_reducible exact Only.refl _ _
    | ((with_reducible apply Only.next (quarterOff_only _ _)); · decide)
    | ((with_reducible apply Only.next (timeOff_only _)); · decide)
    | ((with_reducible apply Only.next (bankOff_only _ _)); · decide)
    | ((with_reducible apply Only.next (stkPowerOff_only _)); · decide)
    | ((with_reducible apply Only.next (linkDomainOff_only _ _)); · decide)
    | ((with_reducible apply Only.next (archDomainOff_only _)); · decide)
    | ((with_reducible apply Only.next (hkOff_only _)); · decide)
    | ((with_reducible apply Only.next (steerOff_only _)); · decide)
    | with_reducible apply Only.ite
    | ((with_reducible apply Only.mkThen)
       · intro p hp; cases p <;> first | exact absurd (by decide) hp | (dsimp only [StatePart.same]; done) | (dsimp only [StatePart.same]; rfl) | (dsimp only [StatePart.same]; exact ⟨rfl, rfl⟩) | (dsimp only [StatePart.same]; exact ⟨rfl, rfl, rfl, rfl, rfl⟩))

theorem sampUp_only (g : Nat) (s : State) : Only [.samp] s (sampUp g s) := by
  unfold sampUp
  repeat' first
    | with_reducible exact Only.refl _ _
    | ((with_reducible apply Only.next (modSampCh_only _ _ _)); · decide)
    | with_reducible apply Only.each
    | intro _ _
    | with_reducible apply Only.ite
    | ((with_reducible apply Only.mkThen)
       · intro p hp; cases p <;> first | exact absurd (by decide) hp | rfl | exact ⟨rfl, rfl⟩ | exact ⟨rfl, rfl, rfl, rfl, rfl⟩)

theorem bankUp_only (b : Nat) (s : State) : Only [.fronts, .samp, .eng, .greys, .cal, .hk] s (bankUp b s) := by
  unfold bankUp
  dsimp only
  repeat' first
    | with_reducible exact Only.refl _ _
    | ((with_reducible apply Only.next (modFront_only _ _ _)); · decide)
    | ((with_reducible apply Only.next (greyRestart_only _ _ _)); · decide)
    | ((with_reducible apply Only.next (modEngCh_only _ _ _)); · decide)
    | ((with_reducible apply Only.next (sampUp_only _ _)); · decide)
    | ((with_reducible apply Only.next (autoRun_only _ _ _)); · decide)
    | with_reducible apply Only.each
    | intro _ _
    | with_reducible apply Only.ite
    | ((with_reducible apply Only.mkThen)
       · intro p hp; cases p <;> first | exact absurd (by decide) hp | rfl | exact ⟨rfl, rfl⟩ | exact ⟨rfl, rfl, rfl, rfl, rfl⟩)

theorem timeUp_only (s : State) : Only [.time, .fire, .fronts, .samp, .cal, .hk, .pwr] s (timeUp s) := by
  unfold timeUp
  dsimp only
  repeat' first
    | with_reducible exact Only.refl _ _
    | ((with_reducible apply Only.next (modFront_only _ _ _)); · decide)
    | ((with_reducible apply Only.next (sampUp_only _ _)); · decide)
    | ((with_reducible apply Only.next (autoRun_only _ _ _)); · decide)
    | with_reducible apply Only.each
    | intro _ _
    | with_reducible apply Only.ite
    | ((with_reducible apply Only.mkThen)
       · intro p hp; cases p <;> first | exact absurd (by decide) hp | rfl | exact ⟨rfl, rfl⟩ | exact ⟨rfl, rfl, rfl, rfl, rfl⟩)

theorem quarterOn_only (q : Nat) (s : State) : Only [.eng] s (quarterOn q s) := by
  unfold quarterOn
  repeat' first
    | with_reducible exact Only.refl _ _
    | with_reducible apply Only.ite
    | split
    | ((with_reducible apply Only.mkThen)
       · intro p hp; cases p <;> first | exact absurd (by decide) hp | (dsimp only [StatePart.same]; done) | (dsimp only [StatePart.same]; rfl) | (dsimp only [StatePart.same]; exact ⟨rfl, rfl⟩) | (dsimp only [StatePart.same]; exact ⟨rfl, rfl, rfl, rfl, rfl⟩))
    | dsimp only

theorem domainOn_only (d : Nat) (s : State) : Only [.time, .irq, .fire, .fronts, .samp, .eng, .greys, .stk, .cal, .hk, .axA, .axB, .replies, .link, .arch, .pwr] s (domainOn d s) := by
  unfold domainOn
  repeat' first
    | with_reducible exact Only.refl _ _
    | ((with_reducible apply Only.next (timeUp_only _)); · decide)
    | ((with_reducible apply Only.next (bankUp_only _ _)); · decide)
    | ((with_reducible apply Only.next (quarterOn_only _ _)); · decide)
    | ((with_reducible apply Only.next (stkPowerOn_only _)); · decide)
    | ((with_reducible apply Only.next (linkPower_only _)); · decide)
    | ((with_reducible apply Only.next (archDomainUp_only _)); · decide)
    | ((with_reducible apply Only.next (fillReads_only _)); · decide)
    | ((with_reducible apply Only.next (hkPowerUp_only _)); · decide)
    | with_reducible apply Only.ite
    | ((with_reducible apply Only.mkThen)
       · intro p hp; cases p <;> first | exact absurd (by decide) hp | rfl | exact ⟨rfl, rfl⟩ | exact ⟨rfl, rfl, rfl, rfl, rfl⟩)

theorem powerDone_only (s : State) : Only [.sys, .replies, .port, .link, .casc, .pwr] s (powerDone s) := by
  unfold powerDone
  repeat' first
    | with_reducible exact Only.refl _ _
    | ((with_reducible apply Only.next (settle_only _)); · decide)
    | ((with_reducible apply Only.next (replyTo_only _ _ _ _ _)); · decide)
    | with_reducible apply Only.ite
    | split
    | ((with_reducible apply Only.mkThen)
       · intro p hp; cases p <;> first | exact absurd (by decide) hp | rfl | exact ⟨rfl, rfl⟩ | exact ⟨rfl, rfl, rfl, rfl, rfl⟩)
    | dsimp only

theorem nextSwitch_only (s : State) : Only [.pwr] s (nextSwitch s) := by
  unfold nextSwitch
  repeat' first
    | with_reducible exact Only.refl _ _
    | with_reducible apply Only.ite
    | ((with_reducible apply Only.mkThen)
       · intro p hp; cases p <;> first | exact absurd (by decide) hp | rfl | exact ⟨rfl, rfl⟩ | exact ⟨rfl, rfl, rfl, rfl, rfl⟩)

theorem startDrain_only (d : Nat) (s : State) : Only [.pwr] s (startDrain d s) := by
  unfold startDrain
  repeat' first
    | with_reducible exact Only.refl _ _
    | with_reducible apply Only.ite
    | ((with_reducible apply Only.mkThen)
       · intro p hp; cases p <;> first | exact absurd (by decide) hp | rfl | exact ⟨rfl, rfl⟩ | exact ⟨rfl, rfl, rfl, rfl, rfl⟩)

theorem switchOne_only (d : Nat) (on : Bool) (s : State) : Only [.free, .irq, .sys, .cfg, .shots, .emits, .counts, .fire, .fronts, .zone, .samp, .eng, .greys, .stk, .cal, .hk, .axA, .axB, .replies, .items, .port, .link, .arch, .casc, .pwr, .upd, .faults] s (switchOne d on s) := by
  unfold switchOne
  repeat' first
    | with_reducible exact Only.refl _ _
    | ((with_reducible apply Only.next (startDrain_only _ _)); · decide)
    | ((with_reducible apply Only.next (powerDone_only _)); · decide)
    | ((with_reducible apply Only.next (domainOff_only _ _)); · decide)
    | with_reducible apply Only.ite
    | ((with_reducible apply Only.mkThen)
       · intro p hp; cases p <;> first | exact absurd (by decide) hp | rfl | exact ⟨rfl, rfl⟩ | exact ⟨rfl, rfl, rfl, rfl, rfl⟩)

theorem referenceLost_only (s : State) : Only [.free, .devState, .resume, .irq, .sys, .inhibit, .shots, .emits, .counts, .fire, .fronts, .samp, .stk, .hk, .axA, .axB, .replies, .flash, .casc, .pwr, .log, .fltQueue] s (referenceLost s) := by
  unfold referenceLost
  dsimp only
  repeat' first
    | with_reducible exact Only.refl _ _
    | ((with_reducible apply Only.next (modEmit_only _ _ _)); · decide)
    | ((with_reducible apply Only.next (takeFree_only _ _)); · decide)
    | ((with_reducible apply Only.next (logNote_only _ _ _ _)); · decide)
    | ((with_reducible apply Only.next (protective_only _ _ _ _)); · decide)
    | with_reducible apply Only.each
    | intro _ _
    | with_reducible apply Only.ite
    | ((with_reducible apply Only.mkThen)
       · intro p hp; cases p <;> first | exact absurd (by decide) hp | rfl | exact ⟨rfl, rfl⟩ | exact ⟨rfl, rfl, rfl, rfl, rfl⟩)

theorem xtalLost_only (s : State) : Only [.sys, .cal, .hk, .items] s (xtalLost s) := by
  unfold xtalLost
  dsimp only
  repeat' first
    | with_reducible exact Only.refl _ _
    | ((with_reducible apply Only.next (hkStale_only _ _ _ _)); · decide)
    | ((with_reducible apply Only.next (fillReads_only _)); · decide)
    | ((with_reducible apply Only.next (nextRepeat_only _ _)); · decide)
    | with_reducible apply Only.ite
    | ((with_reducible apply Only.mkThen)
       · intro p hp; cases p <;> first | exact absurd (by decide) hp | rfl | exact ⟨rfl, rfl⟩ | exact ⟨rfl, rfl, rfl, rfl, rfl⟩)

/-! ### Boot -/

theorem eraseCopy_only (copy : Nat) (s : State) : Only [.flashBytes, .flash] s (eraseCopy copy s) := by
  unfold eraseCopy
  repeat' first
    | with_reducible exact Only.refl _ _
    | with_reducible apply Only.ite
    | ((with_reducible apply Only.mkThen)
       · intro p hp; cases p <;> first | exact absurd (by decide) hp | rfl | exact ⟨rfl, rfl⟩ | exact ⟨rfl, rfl, rfl, rfl, rfl⟩)

theorem progRec_only (copy n : Nat) (b : List Byte) (s : State) : Only [.flashBytes, .flash] s (progRec copy n b s) := by
  unfold progRec
  repeat' first
    | with_reducible exact Only.refl _ _
    | with_reducible apply Only.ite
    | ((with_reducible apply Only.mkThen)
       · intro p hp; cases p <;> first | exact absurd (by decide) hp | rfl | exact ⟨rfl, rfl⟩ | exact ⟨rfl, rfl, rfl, rfl, rfl⟩)

theorem writeRec_only (f : BootRec → BootRec) (s : State) : Only [.flashBytes, .flash] s (writeRec f s) := by
  unfold writeRec
  dsimp only
  repeat' first
    | with_reducible exact Only.refl _ _
    | ((with_reducible apply Only.next (eraseCopy_only _ _)); · decide)
    | ((with_reducible apply Only.next (progRec_only _ _ _ _)); · decide)
    | with_reducible apply Only.ite
    | ((with_reducible apply Only.mkThen)
       · intro p hp; cases p <;> first | exact absurd (by decide) hp | rfl | exact ⟨rfl, rfl⟩ | exact ⟨rfl, rfl, rfl, rfl, rfl⟩)

theorem raiseCounter_only (slot : Nat) (s : State) : Only [.upd] s (raiseCounter slot s) := by
  unfold raiseCounter
  repeat' first
    | with_reducible exact Only.refl _ _
    | with_reducible apply Only.ite
    | ((with_reducible apply Only.mkThen)
       · intro p hp; cases p <;> first | exact absurd (by decide) hp | rfl | exact ⟨rfl, rfl⟩ | exact ⟨rfl, rfl, rfl, rfl, rfl⟩)

theorem startTimer_only (s : State) : Only [.upd] s (startTimer s) := by
  unfold startTimer
  dsimp only
  repeat' first
    | with_reducible exact Only.refl _ _
    | with_reducible apply Only.ite
    | ((with_reducible apply Only.mkThen)
       · intro p hp; cases p <;> first | exact absurd (by decide) hp | rfl | exact ⟨rfl, rfl⟩ | exact ⟨rfl, rfl, rfl, rfl, rfl⟩)

theorem loadCal_only (warm : Bool) (s : State) : Only [.samp, .cal] s (loadCal warm s) := by
  unfold loadCal
  dsimp only
  repeat' first
    | with_reducible exact Only.refl _ _
    | ((with_reducible apply Only.next (modSampCh_only _ _ _)); · decide)
    | ((with_reducible apply Only.next (modCalCh_only _ _ _)); · decide)
    | with_reducible apply Only.each
    | intro _ _
    | with_reducible apply Only.ite
    | split
    | ((with_reducible apply Only.mkThen)
       · intro p hp; cases p <;> first | exact absurd (by decide) hp | rfl | exact ⟨rfl, rfl⟩ | exact ⟨rfl, rfl, rfl, rfl, rfl⟩)
    | dsimp only

theorem refreshAll_only (s : State) : Only [.cal] s (refreshAll s) := by
  unfold refreshAll
  repeat' first
    | with_reducible exact Only.refl _ _
    | ((with_reducible apply Only.next (refreshHeld_only _ _)); · decide)
    | with_reducible apply Only.each
    | intro _ _
    | with_reducible apply Only.ite
    | ((with_reducible apply Only.mkThen)
       · intro p hp; cases p <;> first | exact absurd (by decide) hp | rfl | exact ⟨rfl, rfl⟩ | exact ⟨rfl, rfl, rfl, rfl, rfl⟩)

theorem dropRuns_only (s : State) : Only [.fronts, .cal] s (dropRuns s) := by
  unfold dropRuns
  dsimp only
  repeat' first
    | with_reducible exact Only.refl _ _
    | ((with_reducible apply Only.next (modFront_only _ _ _)); · decide)
    | ((with_reducible apply Only.next (modCalCh_only _ _ _)); · decide)
    | ((with_reducible apply Only.next (modCalGrp_only _ _ _)); · decide)
    | with_reducible apply Only.each
    | intro _ _
    | with_reducible apply Only.ite
    | split
    | ((with_reducible apply Only.mkThen)
       · intro p hp; cases p <;> first | exact absurd (by decide) hp | rfl | exact ⟨rfl, rfl⟩ | exact ⟨rfl, rfl, rfl, rfl, rfl⟩)
    | dsimp only

theorem supRestart_only (choice : Bool) (s : State) : Only [.sys, .fronts, .cal, .axA, .axB, .flashOp, .flash, .link, .casc, .pwr, .upd] s (supRestart choice s) := by
  unfold supRestart
  dsimp only
  repeat' first
    | with_reducible exact Only.refl _ _
    | ((with_reducible apply Only.next (dropRuns_only _)); · decide)
    | with_reducible apply Only.ite
    | ((with_reducible apply Only.mkThen)
       · intro p hp; cases p <;> first | exact absurd (by decide) hp | rfl | exact ⟨rfl, rfl⟩ | exact ⟨rfl, rfl, rfl, rfl, rfl⟩)

theorem enterRecovery_only (slot : Nat) (s : State) : Only [.devState, .resume, .irq, .sys, .upd] s (enterRecovery slot s) := by
  unfold enterRecovery
  dsimp only
  repeat' first
    | with_reducible exact Only.refl _ _
    | ((with_reducible apply Only.next (setDev_only _ _)); · decide)
    | with_reducible apply Only.ite
    | split
    | ((with_reducible apply Only.mkThen)
       · intro p hp; cases p <;> first | exact absurd (by decide) hp | rfl | exact ⟨rfl, rfl⟩ | exact ⟨rfl, rfl, rfl, rfl, rfl⟩)
    | dsimp only

theorem leaveRecovery_only (slot : Nat) (s : State) : Only [.devState, .irq, .sys, .flashBytes, .flash, .upd] s (leaveRecovery slot s) := by
  unfold leaveRecovery
  dsimp only
  repeat' first
    | with_reducible exact Only.refl _ _
    | ((with_reducible apply Only.next (writeRec_only _ _)); · decide)
    | ((with_reducible apply Only.next (setDev_only _ _)); · decide)
    | with_reducible apply Only.ite
    | ((with_reducible apply Only.mkThen)
       · intro p hp; cases p <;> first | exact absurd (by decide) hp | rfl | exact ⟨rfl, rfl⟩ | exact ⟨rfl, rfl, rfl, rfl, rfl⟩)

/-! ### Update -/

theorem updFail_only (reason : Nat) (s : State) : Only [.upd] s (updFail reason s) := by
  unfold updFail
  repeat' first
    | with_reducible exact Only.refl _ _
    | with_reducible apply Only.ite
    | ((with_reducible apply Only.mkThen)
       · intro p hp; cases p <;> first | exact absurd (by decide) hp | rfl | exact ⟨rfl, rfl⟩ | exact ⟨rfl, rfl, rfl, rfl, rfl⟩)

theorem updBegin_only (q : Req) (s : State) : Only [.replies, .flashBytes, .flashOp, .flash, .casc, .upd] s (updBegin q s) := by
  unfold updBegin
  dsimp only
  repeat' first
    | with_reducible exact Only.refl _ _
    | ((with_reducible apply Only.next (replyTo_only _ _ _ _ _)); · decide)
    | ((with_reducible apply Only.next (writeRec_only _ _)); · decide)
    | ((with_reducible apply Only.next (flashNext_only _)); · decide)
    | with_reducible apply Only.ite
    | ((with_reducible apply Only.mkThen)
       · intro p hp; cases p <;> first | exact absurd (by decide) hp | rfl | exact ⟨rfl, rfl⟩ | exact ⟨rfl, rfl, rfl, rfl, rfl⟩)

theorem updData_only (q : Req) (s : State) : Only [.replies, .flashOp, .flash, .upd] s (updData q s) := by
  unfold updData
  dsimp only
  repeat' first
    | with_reducible exact Only.refl _ _
    | ((with_reducible apply Only.next (replyTo_only _ _ _ _ _)); · decide)
    | ((with_reducible apply Only.next (flashNext_only _)); · decide)
    | with_reducible apply Only.ite
    | ((with_reducible apply Only.mkThen)
       · intro p hp; cases p <;> first | exact absurd (by decide) hp | rfl | exact ⟨rfl, rfl⟩ | exact ⟨rfl, rfl, rfl, rfl, rfl⟩)

theorem updEnd_only (sigOk : Bool) (q : Req) (s : State) : Only [.sys, .replies, .flashBytes, .flashOp, .flash, .upd] s (updEnd sigOk q s) := by
  unfold updEnd
  dsimp only
  repeat' first
    | with_reducible exact Only.refl _ _
    | ((with_reducible apply Only.next (replyTo_only _ _ _ _ _)); · decide)
    | ((with_reducible apply Only.next (writeRec_only _ _)); · decide)
    | ((with_reducible apply Only.next (flashNext_only _)); · decide)
    | with_reducible apply Only.ite
    | ((with_reducible apply Only.mkThen)
       · intro p hp; cases p <;> first | exact absurd (by decide) hp | rfl | exact ⟨rfl, rfl⟩ | exact ⟨rfl, rfl, rfl, rfl, rfl⟩)

theorem pendRecord_only (s : State) : Only [.flashBytes, .flash] s (pendRecord s) := by
  unfold pendRecord
  dsimp only
  repeat' first
    | with_reducible exact Only.refl _ _
    | ((with_reducible apply Only.next (writeRec_only _ _)); · decide)
    | with_reducible apply Only.ite
    | ((with_reducible apply Only.mkThen)
       · intro p hp; cases p <;> first | exact absurd (by decide) hp | rfl | exact ⟨rfl, rfl⟩ | exact ⟨rfl, rfl, rfl, rfl, rfl⟩)

theorem sendGo_only (s : State) : Only [.sys, .fronts, .cal, .axA, .axB, .flashOp, .flash, .link, .casc, .pwr, .upd] s (sendGo s) := by
  unfold sendGo
  dsimp only
  repeat' first
    | with_reducible exact Only.refl _ _
    | ((with_reducible apply Only.next (ringSend_only _ _)); · decide)
    | ((with_reducible apply Only.next (supRestart_only _ _)); · decide)
    | with_reducible apply Only.ite
    | ((with_reducible apply Only.mkThen)
       · intro p hp; cases p <;> first | exact absurd (by decide) hp | rfl | exact ⟨rfl, rfl⟩ | exact ⟨rfl, rfl, rfl, rfl, rfl⟩)

theorem masterGoOn_only (s : State) : Only [.irq, .sys, .fronts, .cal, .axA, .axB, .flashBytes, .flashOp, .flash, .link, .casc, .pwr, .upd] s (masterGoOn s) := by
  unfold masterGoOn
  dsimp only
  repeat' first
    | with_reducible exact Only.refl _ _
    | ((with_reducible apply Only.next (irq_only _ _)); · decide)
    | ((with_reducible apply Only.next (updFail_only _ _)); · decide)
    | ((with_reducible apply Only.next (pendRecord_only _)); · decide)
    | ((with_reducible apply Only.next (ringSend_only _ _)); · decide)
    | ((with_reducible apply Only.next (sendGo_only _)); · decide)
    | with_reducible apply Only.ite
    | ((with_reducible apply Only.mkThen)
       · intro p hp; cases p <;> first | exact absurd (by decide) hp | rfl | exact ⟨rfl, rfl⟩ | exact ⟨rfl, rfl, rfl, rfl, rfl⟩)

theorem slavesDiffer_only (s : State) : Only [.free] s (slavesDiffer s).2 := by
  unfold slavesDiffer
  split
  · exact .refl _ _
  · exact takeFree_only 1 s

theorem activateOrder_only (s : State) : Only [.flashBytes, .flash, .casc, .upd] s (activateOrder s) := by
  unfold activateOrder
  dsimp only
  repeat' first
    | with_reducible exact Only.refl _ _
    | ((with_reducible apply Only.next (ringSend_only _ _)); · decide)
    | ((with_reducible apply Only.next (pendRecord_only _)); · decide)
    | with_reducible apply Only.ite
    | ((with_reducible apply Only.mkThen)
       · intro p hp; cases p <;> first | exact absurd (by decide) hp | rfl | exact ⟨rfl, rfl⟩ | exact ⟨rfl, rfl, rfl, rfl, rfl⟩)

theorem updActivate_only (q : Req) (s : State) : Only [.free, .replies, .flashBytes, .flash, .casc, .upd] s (updActivate q s) := by
  unfold updActivate
  dsimp only
  repeat' first
    | with_reducible exact Only.refl _ _
    | ((with_reducible apply Only.next (activateOrder_only _)); · decide)
    | ((with_reducible apply Only.next (replyTo_only _ _ _ _ _)); · decide)
    | ((with_reducible apply Only.next (slavesDiffer_only _)); · decide)
    | ((with_reducible apply Only.next (ringSend_only _ _)); · decide)
    | with_reducible apply Only.ite
    | ((with_reducible apply Only.mkThen)
       · intro p hp; cases p <;> first | exact absurd (by decide) hp | rfl | exact ⟨rfl, rfl⟩ | exact ⟨rfl, rfl, rfl, rfl, rfl⟩)

theorem confirmOwn_only (s : State) : Only [.irq, .flashBytes, .flash, .upd] s (confirmOwn s) := by
  unfold confirmOwn
  dsimp only
  repeat' first
    | with_reducible exact Only.refl _ _
    | ((with_reducible apply Only.next (writeRec_only _ _)); · decide)
    | ((with_reducible apply Only.next (irq_only _ _)); · decide)
    | ((with_reducible apply Only.next (raiseCounter_only _ _)); · decide)
    | with_reducible apply Only.ite
    | ((with_reducible apply Only.mkThen)
       · intro p hp; cases p <;> first | exact absurd (by decide) hp | rfl | exact ⟨rfl, rfl⟩ | exact ⟨rfl, rfl, rfl, rfl, rfl⟩)

theorem fallBack_only (reason : Nat) (s : State) : Only [.sys, .fronts, .cal, .axA, .axB, .flashBytes, .flashOp, .flash, .link, .casc, .pwr, .upd] s (fallBack reason s) := by
  unfold fallBack
  dsimp only
  repeat' first
    | with_reducible exact Only.refl _ _
    | ((with_reducible apply Only.next (ringSend_only _ _)); · decide)
    | ((with_reducible apply Only.next (writeRec_only _ _)); · decide)
    | ((with_reducible apply Only.next (supRestart_only _ _)); · decide)
    | with_reducible apply Only.ite
    | ((with_reducible apply Only.mkThen)
       · intro p hp; cases p <;> first | exact absurd (by decide) hp | rfl | exact ⟨rfl, rfl⟩ | exact ⟨rfl, rfl, rfl, rfl, rfl⟩)

theorem updConfirm_only (q : Req) (s : State) : Only [.irq, .replies, .flashBytes, .flash, .casc, .upd] s (updConfirm q s) := by
  unfold updConfirm
  repeat' first
    | with_reducible exact Only.refl _ _
    | ((with_reducible apply Only.next (ringSend_only _ _)); · decide)
    | ((with_reducible apply Only.next (confirmOwn_only _)); · decide)
    | ((with_reducible apply Only.next (replyTo_only _ _ _ _ _)); · decide)
    | with_reducible apply Only.ite
    | ((with_reducible apply Only.mkThen)
       · intro p hp; cases p <;> first | exact absurd (by decide) hp | rfl | exact ⟨rfl, rfl⟩ | exact ⟨rfl, rfl, rfl, rfl, rfl⟩)

theorem confirmGoOn_only (s : State) : Only [.irq, .sys, .fronts, .cal, .axA, .axB, .replies, .port, .flashBytes, .flashOp, .flash, .link, .casc, .pwr, .upd] s (confirmGoOn s) := by
  unfold confirmGoOn
  dsimp only
  repeat' first
    | with_reducible exact Only.refl _ _
    | ((with_reducible apply Only.next (settle_only _)); · decide)
    | ((with_reducible apply Only.next (replyTo_only _ _ _ _ _)); · decide)
    | ((with_reducible apply Only.next (confirmOwn_only _)); · decide)
    | ((with_reducible apply Only.next (ringSend_only _ _)); · decide)
    | ((with_reducible apply Only.next (fallBack_only _ _)); · decide)
    | with_reducible apply Only.ite
    | split
    | ((with_reducible apply Only.mkThen)
       · intro p hp; cases p <;> first | exact absurd (by decide) hp | rfl | exact ⟨rfl, rfl⟩ | exact ⟨rfl, rfl, rfl, rfl, rfl⟩)
    | dsimp only

theorem recoverSelect_only (q : Req) (s : State) : Only [.devState, .irq, .sys, .replies, .flashBytes, .flash, .upd] s (recoverSelect q s) := by
  unfold recoverSelect
  dsimp only
  repeat' first
    | with_reducible exact Only.refl _ _
    | ((with_reducible apply Only.next (leaveRecovery_only _ _)); · decide)
    | ((with_reducible apply Only.next (replyTo_only _ _ _ _ _)); · decide)
    | with_reducible apply Only.ite
    | ((with_reducible apply Only.mkThen)
       · intro p hp; cases p <;> first | exact absurd (by decide) hp | rfl | exact ⟨rfl, rfl⟩ | exact ⟨rfl, rfl, rfl, rfl, rfl⟩)

/-! ### FlashCmd -/

theorem writeSlate_only (s : State) : Only [.eng] s (writeSlate s) := by
  unfold writeSlate
  dsimp only
  repeat' first
    | with_reducible exact Only.refl _ _
    | with_reducible apply Only.ite
    | ((with_reducible apply Only.mkThen)
       · intro p hp; cases p <;> first | exact absurd (by decide) hp | rfl | exact ⟨rfl, rfl⟩ | exact ⟨rfl, rfl, rfl, rfl, rfl⟩)

theorem calReset_only (s : State) : Only [.samp, .cal, .flashBytes, .flashOp, .flash] s (calReset s) := by
  unfold calReset
  dsimp only
  generalize h : each _ _ s = s1
  have h1 : Only [.samp, .cal, .flashBytes, .flashOp, .flash] s s1 := by
    subst h
    refine .each (fun _ _ => ?_) (.refl _ _)
    ((with_reducible apply Only.mkThen); · intro p hp; cases p <;> first | exact absurd (by decide) hp | rfl | exact ⟨rfl, rfl⟩ | exact ⟨rfl, rfl, rfl, rfl, rfl⟩)
    exact .refl _ _
  repeat' first
    | with_reducible exact h1
    | with_reducible exact Only.refl _ _
    | ((with_reducible apply Only.next (refreshAll_only _)); · decide)
    | ((with_reducible apply Only.next (modSampCh_only _ _ _)); · decide)
    | ((with_reducible apply Only.next (modCalCh_only _ _ _)); · decide)
    | with_reducible apply Only.each
    | intro _ _
    | ((with_reducible apply Only.mkThen); · intro p hp; cases p <;> first | exact absurd (by decide) hp | rfl | exact ⟨rfl, rfl⟩ | exact ⟨rfl, rfl, rfl, rfl, rfl⟩)

theorem calStart_only (q : Req) (s : State) : Only [.samp, .cal, .hk, .replies, .flashBytes, .flashOp, .flash] s (calStart q s) := by
  unfold calStart
  dsimp only
  repeat' first
    | with_reducible exact Only.refl _ _
    | ((with_reducible apply Only.next (replyTo_only _ _ _ _ _)); · decide)
    | ((with_reducible apply Only.next (startRun_only _ _ _ _)); · decide)
    | ((with_reducible apply Only.next (calReset_only _)); · decide)
    | with_reducible apply Only.each
    | intro _ _
    | with_reducible apply Only.ite
    | ((with_reducible apply Only.mkThen)
       · intro p hp; cases p <;> first | exact absurd (by decide) hp | rfl | exact ⟨rfl, rfl⟩ | exact ⟨rfl, rfl, rfl, rfl, rfl⟩)

/-! ### System -/

theorem coldReset_only (s : State) : Only [.time, .free, .devState, .resume, .irq, .sys, .cfg, .inhibit, .shots, .emits, .counts, .fire, .fronts, .zone, .samp, .eng, .greys, .stk, .cal, .hk, .axA, .axB, .replies, .items, .port, .flashBytes, .flashOp, .flash, .link, .arch, .casc, .pwr, .upd, .log, .faults, .fltQueue] s (coldReset s) :=
  ⟨fun p hp => by cases p <;> first | exact absurd (by decide) hp | rfl⟩

theorem bootBegin_only (s : State) : Only [.flash, .upd] s (bootBegin s) := by
  unfold bootBegin
  dsimp only
  repeat' first
    | with_reducible exact Only.refl _ _
    | with_reducible apply Only.ite
    | ((with_reducible apply Only.mkThen)
       · intro p hp; cases p <;> first | exact absurd (by decide) hp | rfl | exact ⟨rfl, rfl⟩ | exact ⟨rfl, rfl, rfl, rfl, rfl⟩)

theorem chooseSlot_only (chk : State → Nat → Nat) (s : State) : Only [.flashBytes, .flash, .casc, .upd] s (chooseSlot chk s).2.2 := by
  unfold chooseSlot
  repeat' first
    | with_reducible exact Only.refl _ _
    | ((with_reducible apply Only.next (writeRec_only _ _)); · first | decide | exact fun _ h => h)
    | ((with_reducible apply Only.next (ringSend_only _ _)); · first | decide | exact fun _ h => h)
    | split
    | dsimp only
    | ((with_reducible apply Only.mkThen); · intro p hp; cases p <;> first | exact absurd (by decide) hp | rfl | exact ⟨rfl, rfl⟩ | exact ⟨rfl, rfl, rfl, rfl, rfl⟩)

theorem startImage_only (slot : Nat) (s : State) : Only [.flashBytes, .flash, .upd] s (startImage slot s) := by
  unfold startImage
  dsimp only
  repeat' first
    | with_reducible exact Only.refl _ _
    | ((with_reducible apply Only.next (writeRec_only _ _)); · decide)
    | ((with_reducible apply Only.next (raiseCounter_only _ _)); · decide)
    | with_reducible apply Only.ite
    | ((with_reducible apply Only.mkThen)
       · intro p hp; cases p <;> first | exact absurd (by decide) hp | rfl | exact ⟨rfl, rfl⟩ | exact ⟨rfl, rfl, rfl, rfl, rfl⟩)

theorem readMode_only (s : State) : Only [.flash] s (readMode s) := by
  unfold readMode
  dsimp only
  repeat' first
    | with_reducible exact Only.refl _ _
    | with_reducible apply Only.ite
    | ((with_reducible apply Only.mkThen)
       · intro p hp; cases p <;> first | exact absurd (by decide) hp | rfl | exact ⟨rfl, rfl⟩ | exact ⟨rfl, rfl, rfl, rfl, rfl⟩)

theorem resumeCal_only (s : State) : Only [.cal, .hk] s (resumeCal s) := by
  unfold resumeCal
  dsimp only
  repeat' first
    | with_reducible exact Only.refl _ _
    | ((with_reducible apply Only.next (modCalGrp_only _ _ _)); · decide)
    | ((with_reducible apply Only.next (startRun_only _ _ _ _)); · decide)
    | ((with_reducible apply Only.next (refreshAll_only _)); · decide)
    | with_reducible apply Only.each
    | intro _ _
    | with_reducible apply Only.ite
    | ((with_reducible apply Only.mkThen)
       · intro p hp; cases p <;> first | exact absurd (by decide) hp | rfl | exact ⟨rfl, rfl⟩ | exact ⟨rfl, rfl, rfl, rfl, rfl⟩)

/-! ### Status -/

theorem rcClear_only (id n : Nat) (s : State) : Only [.sys, .emits, .fire, .fronts, .samp, .eng, .stk, .cal, .hk, .axA, .axB, .port, .flash, .link, .arch, .casc, .log] s (rcClear id n s) := by
  unfold rcClear
  repeat' first
    | with_reducible exact Only.refl _ _
    | ((with_reducible apply Only.next (modFront_only _ _ _)); · decide)
    | ((with_reducible apply Only.next (modSampCh_only _ _ _)); · decide)
    | ((with_reducible apply Only.next (modEmit_only _ _ _)); · decide)
    | ((with_reducible apply Only.next (modEngine_only _ _ _)); · decide)
    | ((with_reducible apply Only.next (modEngCh_only _ _ _)); · decide)
    | ((with_reducible apply Only.next (modAxis_only _ _ _)); · decide)
    | ((with_reducible apply Only.next (modLane_only _ _ _)); · decide)
    | with_reducible apply Only.ite
    | split
    | ((with_reducible apply Only.mkThen)
       · intro p hp; cases p <;> first | exact absurd (by decide) hp | rfl | exact ⟨rfl, rfl⟩ | exact ⟨rfl, rfl, rfl, rfl, rfl⟩)
    | dsimp only

/-! ### Packets -/

theorem formatReply_only (q : Req) (s : State) : Only [.sys, .replies] s (formatReply q s) := by
  unfold formatReply
  repeat' first
    | with_reducible exact Only.refl _ _
    | ((with_reducible apply Only.next (replyTo_only _ _ _ _ _)); · decide)
    | with_reducible apply Only.ite
    | ((with_reducible apply Only.mkThen)
       · intro p hp; cases p <;> first | exact absurd (by decide) hp | rfl | exact ⟨rfl, rfl⟩ | exact ⟨rfl, rfl, rfl, rfl, rfl⟩)

theorem setParam_only (q : Req) (s : State) : Only [.sys, .cfg, .replies] s (setParam q s) := by
  unfold setParam
  dsimp only
  repeat' first
    | with_reducible exact Only.refl _ _
    | ((with_reducible apply Only.next (replyTo_only _ _ _ _ _)); · decide)
    | ((with_reducible apply Only.next (formatReply_only _ _)); · decide)
    | with_reducible apply Only.ite
    | split
    | ((with_reducible apply Only.mkThen)
       · intro p hp; cases p <;> first | exact absurd (by decide) hp | rfl | exact ⟨rfl, rfl⟩ | exact ⟨rfl, rfl, rfl, rfl, rfl⟩)
    | dsimp only

theorem getParam_only (q : Req) (s : State) : Only [.sys, .emits, .fire, .fronts, .samp, .eng, .stk, .cal, .hk, .axA, .axB, .replies, .port, .flash, .link, .arch, .casc, .log] s (getParam q s) := by
  unfold getParam
  dsimp only
  repeat' first
    | with_reducible exact Only.refl _ _
    | ((with_reducible apply Only.next (replyTo_only _ _ _ _ _)); · decide)
    | ((with_reducible apply Only.next (rcClear_only _ _ _)); · decide)
    | with_reducible apply Only.each
    | intro _ _
    | with_reducible apply Only.ite
    | split
    | ((with_reducible apply Only.mkThen)
       · intro p hp; cases p <;> first | exact absurd (by decide) hp | rfl | exact ⟨rfl, rfl⟩ | exact ⟨rfl, rfl, rfl, rfl, rfl⟩)
    | dsimp only

theorem commitSet_only (late : Bool) (s : State) : Only [.sys, .cfg] s (commitSet late s) := by
  unfold commitSet
  dsimp only
  repeat' first
    | with_reducible exact Only.refl _ _
    | with_reducible apply Only.ite
    | ((with_reducible apply Only.mkThen)
       · intro p hp; cases p <;> first | exact absurd (by decide) hp | rfl | exact ⟨rfl, rfl⟩ | exact ⟨rfl, rfl, rfl, rfl, rfl⟩)

theorem commit_only (q : Req) (s : State) : Only [.free, .irq, .sys, .cfg, .shots, .emits, .counts, .fire, .fronts, .zone, .eng, .greys, .stk, .hk, .axA, .axB, .replies, .items, .link, .arch, .upd, .faults] s (commit q s) := by
  unfold commit
  dsimp only
  repeat' first
    | with_reducible exact Only.refl _ _
    | ((with_reducible apply Only.next (replyTo_only _ _ _ _ _)); · decide)
    | ((with_reducible apply Only.next (commitSet_only _ _)); · decide)
    | ((with_reducible apply Only.next (applyNow_only _)); · decide)
    | with_reducible apply Only.ite
    | split
    | ((with_reducible apply Only.mkThen)
       · intro p hp; cases p <;> first | exact absurd (by decide) hp | rfl | exact ⟨rfl, rfl⟩ | exact ⟨rfl, rfl, rfl, rfl, rfl⟩)
    | dsimp only

theorem discard_only (q : Req) (s : State) : Only [.cfg, .replies] s (discard q s) := by
  unfold discard
  repeat' first
    | with_reducible exact Only.refl _ _
    | ((with_reducible apply Only.next (replyTo_only _ _ _ _ _)); · decide)
    | with_reducible apply Only.ite
    | ((with_reducible apply Only.mkThen)
       · intro p hp; cases p <;> first | exact absurd (by decide) hp | rfl | exact ⟨rfl, rfl⟩ | exact ⟨rfl, rfl, rfl, rfl, rfl⟩)

theorem readReg_only (q : Req) (s : State) : Only [.sys, .emits, .fire, .fronts, .samp, .eng, .stk, .cal, .hk, .axA, .axB, .replies, .port, .flash, .link, .arch, .casc, .log] s (readReg q s) := by
  unfold readReg
  dsimp only
  repeat' first
    | with_reducible exact Only.refl _ _
    | ((with_reducible apply Only.next (replyTo_only _ _ _ _ _)); · decide)
    | ((with_reducible apply Only.next (rcClear_only _ _ _)); · decide)
    | with_reducible apply Only.each
    | intro _ _
    | with_reducible apply Only.ite
    | split
    | ((with_reducible apply Only.mkThen)
       · intro p hp; cases p <;> first | exact absurd (by decide) hp | rfl | exact ⟨rfl, rfl⟩ | exact ⟨rfl, rfl, rfl, rfl, rfl⟩)
    | dsimp only

theorem tlPut_only (p v : Nat) (s : State) : Only [.port] s (tlPut p v s) := by
  unfold tlPut
  dsimp only
  repeat' first
    | with_reducible exact Only.refl _ _
    | with_reducible apply Only.ite
    | ((with_reducible apply Only.mkThen)
       · intro p hp; cases p <;> first | exact absurd (by decide) hp | rfl | exact ⟨rfl, rfl⟩ | exact ⟨rfl, rfl, rfl, rfl, rfl⟩)

theorem regPut_only (b : RegBlk) (k : Nat) (w : Word) (s : State) : Only [.irq, .sys, .hk, .port] s (regPut b k w s) := by
  unfold regPut
  dsimp only
  repeat' first
    | with_reducible exact Only.refl _ _
    | ((with_reducible apply Only.next (tlPut_only _ _ _)); · decide)
    | with_reducible apply Only.ite
    | split
    | ((with_reducible apply Only.mkThen)
       · intro p hp; cases p <;> first | exact absurd (by decide) hp | rfl | exact ⟨rfl, rfl⟩ | exact ⟨rfl, rfl, rfl, rfl, rfl⟩)
    | dsimp only

theorem regPuts_only (b : RegBlk) (k : Nat) (l : List Word) (s : State) : Only [.irq, .sys, .hk, .port] s (regPuts b k l s) := by
  induction l generalizing k s with
  | nil => exact .refl _ _
  | cons w r ih => exact .andThen (ih _ _) (.andThen (regPut_only _ _ _ _) (.refl _ _))

theorem writeReg_only (q : Req) (s : State) : Only [.irq, .sys, .hk, .replies, .port] s (writeReg q s) := by
  unfold writeReg
  dsimp only
  repeat' first
    | with_reducible exact Only.refl _ _
    | ((with_reducible apply Only.next (replyTo_only _ _ _ _ _)); · decide)
    | ((with_reducible apply Only.next (regPuts_only _ _ _ _)); · decide)
    | with_reducible apply Only.ite
    | split
    | ((with_reducible apply Only.mkThen)
       · intro p hp; cases p <;> first | exact absurd (by decide) hp | rfl | exact ⟨rfl, rfl⟩ | exact ⟨rfl, rfl, rfl, rfl, rfl⟩)
    | dsimp only

theorem serveWrite_only (q : Req) (s : State) : Only [.irq, .sys, .hk, .replies, .port, .link, .casc] s (serveWrite q s) :=
  .serve fun q s => (writeReg_only _ _).weaken

theorem enterArmed_only (s : State) : Only [.devState, .irq, .fronts, .greys] s (enterArmed s) := by
  unfold enterArmed
  repeat' first
    | with_reducible exact Only.refl _ _
    | ((with_reducible apply Only.next (setDev_only _ _)); · decide)
    | ((with_reducible apply Only.next (setRange_only _ _ _)); · decide)
    | with_reducible apply Only.each
    | intro _ _
    | with_reducible apply Only.ite
    | ((with_reducible apply Only.mkThen)
       · intro p hp; cases p <;> first | exact absurd (by decide) hp | rfl | exact ⟨rfl, rfl⟩ | exact ⟨rfl, rfl, rfl, rfl, rfl⟩)

theorem stateWaits_only (t : Nat) (q : Req) (s : State) : Only [.sys, .replies] s (stateWaits t q s) := by
  unfold stateWaits
  repeat' first
    | with_reducible exact Only.refl _ _
    | ((with_reducible apply Only.next (replyTo_only _ _ _ _ _)); · decide)
    | with_reducible apply Only.ite
    | ((with_reducible apply Only.mkThen)
       · intro p hp; cases p <;> first | exact absurd (by decide) hp | rfl | exact ⟨rfl, rfl⟩ | exact ⟨rfl, rfl, rfl, rfl, rfl⟩)

theorem armedRun_only (q : Req) (s : State) : Only [.free, .sys, .replies] s (armedRun q s) := by
  unfold armedRun
  dsimp only
  repeat' first
    | with_reducible exact Only.refl _ _
    | ((with_reducible apply Only.next (takeFree_only _ _)); · decide)
    | ((with_reducible apply Only.next (stateWaits_only _ _ _)); · decide)
    | ((with_reducible apply Only.next (replyTo_only _ _ _ _ _)); · decide)
    | with_reducible apply Only.ite
    | ((with_reducible apply Only.mkThen)
       · intro p hp; cases p <;> first | exact absurd (by decide) hp | rfl | exact ⟨rfl, rfl⟩ | exact ⟨rfl, rfl, rfl, rfl, rfl⟩)

theorem stateReq_only (q : Req) (s : State) : Only [.free, .devState, .resume, .irq, .sys, .cfg, .inhibit, .shots, .emits, .counts, .fire, .fronts, .zone, .eng, .greys, .stk, .cal, .hk, .axA, .axB, .replies, .items, .flashOp, .flash, .link, .arch, .upd, .faults] s (stateReq q s) := by
  unfold stateReq
  dsimp only
  repeat' first
    | with_reducible exact Only.refl _ _
    | ((with_reducible apply Only.next (replyTo_only _ _ _ _ _)); · decide)
    | ((with_reducible apply Only.next (enterArmed_only _)); · decide)
    | ((with_reducible apply Only.next (armedRun_only _ _)); · decide)
    | ((with_reducible apply Only.next (enterIdle_only _)); · decide)
    | ((with_reducible apply Only.next (setDev_only _ _)); · decide)
    | ((with_reducible apply Only.next (stateWaits_only _ _ _)); · decide)
    | with_reducible apply Only.ite
    | split
    | ((with_reducible apply Only.mkThen)
       · intro p hp; cases p <;> first | exact absurd (by decide) hp | rfl | exact ⟨rfl, rfl⟩ | exact ⟨rfl, rfl, rfl, rfl, rfl⟩)
    | dsimp only

theorem steerMode_only (q : Req) (s : State) : Only [.hk, .axA, .axB, .replies] s (steerMode q s) := by
  unfold steerMode
  dsimp only
  repeat' first
    | with_reducible exact Only.refl _ _
    | ((with_reducible apply Only.next (replyTo_only _ _ _ _ _)); · decide)
    | ((with_reducible apply Only.next (modAxis_only _ _ _)); · decide)
    | ((with_reducible apply Only.next (pwmGone_only _)); · decide)
    | with_reducible apply Only.ite
    | ((with_reducible apply Only.mkThen)
       · intro p hp; cases p <;> first | exact absurd (by decide) hp | rfl | exact ⟨rfl, rfl⟩ | exact ⟨rfl, rfl, rfl, rfl, rfl⟩)

theorem steerMove_only (q : Req) (s : State) : Only [.axA, .axB, .replies] s (steerMove q s) := by
  unfold steerMove
  dsimp only
  repeat' first
    | with_reducible exact Only.refl _ _
    | ((with_reducible apply Only.next (replyTo_only _ _ _ _ _)); · decide)
    | ((with_reducible apply Only.next (modAxis_only _ _ _)); · decide)
    | with_reducible apply Only.ite
    | ((with_reducible apply Only.mkThen)
       · intro p hp; cases p <;> first | exact absurd (by decide) hp | rfl | exact ⟨rfl, rfl⟩ | exact ⟨rfl, rfl, rfl, rfl, rfl⟩)

theorem modeTaken_only (p : Option PendMode) (s : State) : Only [.irq, .replies] s (modeTaken p s) := by
  unfold modeTaken
  dsimp only
  repeat' first
    | with_reducible exact Only.refl _ _
    | ((with_reducible apply Only.next (irq_only _ _)); · decide)
    | ((with_reducible apply Only.next (replyTo_only _ _ _ _ _)); · decide)
    | with_reducible apply Only.ite
    | split
    | ((with_reducible apply Only.mkThen)
       · intro p hp; cases p <;> first | exact absurd (by decide) hp | rfl | exact ⟨rfl, rfl⟩ | exact ⟨rfl, rfl, rfl, rfl, rfl⟩)
    | dsimp only

theorem badOpcode_only (opc : Byte) (q : Req) (s : State) : Only [.sys, .replies] s (badOpcode opc q s) := by
  unfold badOpcode
  repeat' first
    | with_reducible exact Only.refl _ _
    | ((with_reducible apply Only.next (replyTo_only _ _ _ _ _)); · decide)
    | with_reducible apply Only.ite
    | ((with_reducible apply Only.mkThen)
       · intro p hp; cases p <;> first | exact absurd (by decide) hp | rfl | exact ⟨rfl, rfl⟩ | exact ⟨rfl, rfl, rfl, rfl, rfl⟩)

/-! ### Port -/

theorem modTrans_only (f : Trans → Trans) (s : State) : Only [.port] s (modTrans f s) := by
  unfold modTrans
  repeat' first
    | with_reducible exact Only.refl _ _
    | with_reducible apply Only.ite
    | ((with_reducible apply Only.mkThen)
       · intro p hp; cases p <;> first | exact absurd (by decide) hp | rfl | exact ⟨rfl, rfl⟩ | exact ⟨rfl, rfl, rfl, rfl, rfl⟩)

theorem extraEdges_only (n : Nat) (s : State) : Only [.port] s (extraEdges n s) := by
  unfold extraEdges
  repeat' first
    | with_reducible exact Only.refl _ _
    | with_reducible apply Only.ite
    | ((with_reducible apply Only.mkThen)
       · intro p hp; cases p <;> first | exact absurd (by decide) hp | rfl | exact ⟨rfl, rfl⟩ | exact ⟨rfl, rfl, rfl, rfl, rfl⟩)

theorem nrdyEdges_only (n : Nat) (s : State) : Only [.port] s (nrdyEdges n s) := by
  unfold nrdyEdges
  repeat' first
    | with_reducible exact Only.refl _ _
    | ((with_reducible apply Only.next (modTrans_only _ _)); · decide)
    | with_reducible apply Only.ite
    | ((with_reducible apply Only.mkThen)
       · intro p hp; cases p <;> first | exact absurd (by decide) hp | rfl | exact ⟨rfl, rfl⟩ | exact ⟨rfl, rfl, rfl, rfl, rfl⟩)

theorem shortTrans_only (s : State) : Only [.port] s (shortTrans s) := by
  unfold shortTrans
  repeat' first
    | with_reducible exact Only.refl _ _
    | ((with_reducible apply Only.next (modTrans_only _ _)); · decide)
    | with_reducible apply Only.ite
    | ((with_reducible apply Only.mkThen)
       · intro p hp; cases p <;> first | exact absurd (by decide) hp | rfl | exact ⟨rfl, rfl⟩ | exact ⟨rfl, rfl, rfl, rfl, rfl⟩)

theorem shiftOut_only (b : Byte) (s : State) : Only [.port] s (shiftOut b s) := by
  unfold shiftOut
  repeat' first
    | with_reducible exact Only.refl _ _
    | with_reducible apply Only.ite
    | ((with_reducible apply Only.mkThen)
       · intro p hp; cases p <;> first | exact absurd (by decide) hp | rfl | exact ⟨rfl, rfl⟩ | exact ⟨rfl, rfl, rfl, rfl, rfl⟩)

theorem takeAction_only (a : Byte) (s : State) : Only [.port] s (takeAction a s) := by
  unfold takeAction
  dsimp only
  repeat' first
    | with_reducible exact Only.refl _ _
    | ((with_reducible apply Only.next (shiftOut_only _ _)); · decide)
    | ((with_reducible apply Only.next (modTrans_only _ _)); · decide)
    | with_reducible apply Only.ite
    | split
    | ((with_reducible apply Only.mkThen)
       · intro p hp; cases p <;> first | exact absurd (by decide) hp | rfl | exact ⟨rfl, rfl⟩ | exact ⟨rfl, rfl, rfl, rfl, rfl⟩)
    | dsimp only

theorem headerSeen_only (s : State) : Only [.port] s (headerSeen s) := by
  unfold headerSeen
  repeat' first
    | with_reducible exact Only.refl _ _
    | ((with_reducible apply Only.next (modTrans_only _ _)); · decide)
    | with_reducible apply Only.ite
    | split
    | ((with_reducible apply Only.mkThen)
       · intro p hp; cases p <;> first | exact absurd (by decide) hp | rfl | exact ⟨rfl, rfl⟩ | exact ⟨rfl, rfl, rfl, rfl, rfl⟩)
    | dsimp only

theorem writeByte_only (edges : Nat) (b : Byte) (ready : Bool) (s0 : State) : Only [.port] s0 (writeByte edges b ready s0) := by
  unfold writeByte
  dsimp only
  repeat' first
    | with_reducible exact Only.refl _ _
    | ((with_reducible apply Only.next (nrdyEdges_only _ _)); · decide)
    | ((with_reducible apply Only.next (extraEdges_only _ _)); · decide)
    | ((with_reducible apply Only.next (headerSeen_only _)); · decide)
    | ((with_reducible apply Only.next (modTrans_only _ _)); · decide)
    | with_reducible apply Only.ite
    | split
    | ((with_reducible apply Only.mkThen)
       · intro p hp; cases p <;> first | exact absurd (by decide) hp | rfl | exact ⟨rfl, rfl⟩ | exact ⟨rfl, rfl, rfl, rfl, rfl⟩)
    | dsimp only

theorem supTakes_only (n : Nat) (s : State) : Only [.port] s (supTakes n s) := by
  unfold supTakes
  repeat' first
    | with_reducible exact Only.refl _ _
    | ((with_reducible apply Only.next (modTrans_only _ _)); · decide)
    | with_reducible apply Only.ite
    | ((with_reducible apply Only.mkThen)
       · intro p hp; cases p <;> first | exact absurd (by decide) hp | rfl | exact ⟨rfl, rfl⟩ | exact ⟨rfl, rfl, rfl, rfl, rfl⟩)

theorem readByte_only (edges : Nat) (s : State) : Only [.port] s (readByte edges s) := by
  unfold readByte
  repeat' first
    | with_reducible exact Only.refl _ _
    | ((with_reducible apply Only.next (shiftOut_only _ _)); · decide)
    | ((with_reducible apply Only.next (extraEdges_only _ _)); · decide)
    | ((with_reducible apply Only.next (modTrans_only _ _)); · decide)
    | ((with_reducible apply Only.next (nrdyEdges_only _ _)); · decide)
    | with_reducible apply Only.ite
    | split
    | ((with_reducible apply Only.mkThen)
       · intro p hp; cases p <;> first | exact absurd (by decide) hp | rfl | exact ⟨rfl, rfl⟩ | exact ⟨rfl, rfl, rfl, rfl, rfl⟩)
    | dsimp only

theorem supLoads_only (n : Nat) (s : State) : Only [.port] s (supLoads n s) := by
  unfold supLoads
  repeat' first
    | with_reducible exact Only.refl _ _
    | ((with_reducible apply Only.next (modTrans_only _ _)); · decide)
    | with_reducible apply Only.ite
    | ((with_reducible apply Only.mkThen)
       · intro p hp; cases p <;> first | exact absurd (by decide) hp | rfl | exact ⟨rfl, rfl⟩ | exact ⟨rfl, rfl, rfl, rfl, rfl⟩)

theorem endWrite_only (t : Trans) (s : State) : Only [.port] s (endWrite t s) := by
  unfold endWrite
  repeat' first
    | with_reducible exact Only.refl _ _
    | ((with_reducible apply Only.next (bufOwn_only _ _ _ _)); · decide)
    | ((with_reducible apply Only.next (bufPacket_only _ _ _)); · decide)
    | with_reducible apply Only.ite
    | ((with_reducible apply Only.mkThen)
       · intro p hp; cases p <;> first | exact absurd (by decide) hp | rfl | exact ⟨rfl, rfl⟩ | exact ⟨rfl, rfl, rfl, rfl, rfl⟩)

theorem endRead_only (t : Trans) (s : State) : Only [.replies] s (endRead t s) := by
  unfold endRead
  repeat' first
    | with_reducible exact Only.refl _ _
    | with_reducible apply Only.ite
    | split
    | ((with_reducible apply Only.mkThen)
       · intro p hp; cases p <;> first | exact absurd (by decide) hp | rfl | exact ⟨rfl, rfl⟩ | exact ⟨rfl, rfl, rfl, rfl, rfl⟩)
    | dsimp only

theorem partByte_only (bits val : Nat) (s : State) : Only [.port] s (partByte bits val s) := by
  unfold partByte
  repeat' first
    | with_reducible exact Only.refl _ _
    | ((with_reducible apply Only.next (takeAction_only _ _)); · decide)
    | ((with_reducible apply Only.next (writeByte_only _ _ _ _)); · decide)
    | ((with_reducible apply Only.next (extraEdges_only _ _)); · decide)
    | ((with_reducible apply Only.next (modTrans_only _ _)); · decide)
    | ((with_reducible apply Only.next (nrdyEdges_only _ _)); · decide)
    | with_reducible apply Only.ite
    | split
    | ((with_reducible apply Only.mkThen)
       · intro p hp; cases p <;> first | exact absurd (by decide) hp | rfl | exact ⟨rfl, rfl⟩ | exact ⟨rfl, rfl, rfl, rfl, rfl⟩)
    | dsimp only

theorem endTrans_only (bits val : Nat) (s : State) : Only [.sys, .replies, .port, .link, .casc] s (endTrans bits val s) := by
  unfold endTrans
  dsimp only
  repeat' first
    | with_reducible exact Only.refl _ _
    | ((with_reducible apply Only.next (partByte_only _ _ _)); · decide)
    | ((with_reducible apply Only.next (shortTrans_only _)); · decide)
    | ((with_reducible apply Only.next (endWrite_only _ _)); · decide)
    | ((with_reducible apply Only.next (endRead_only _ _)); · decide)
    | ((with_reducible apply Only.next (settle_only _)); · decide)
    | with_reducible apply Only.ite
    | split
    | ((with_reducible apply Only.mkThen)
       · intro p hp; cases p <;> first | exact absurd (by decide) hp | rfl | exact ⟨rfl, rfl⟩ | exact ⟨rfl, rfl, rfl, rfl, rfl⟩)
    | dsimp only

theorem telStart_only (sckHigh : Bool) (s : State) : Only [.port] s (telStart sckHigh s) := by
  unfold telStart
  repeat' first
    | with_reducible exact Only.refl _ _
    | with_reducible apply Only.ite
    | ((with_reducible apply Only.mkThen)
       · intro p hp; cases p <;> first | exact absurd (by decide) hp | rfl | exact ⟨rfl, rfl⟩ | exact ⟨rfl, rfl, rfl, rfl, rfl⟩)

theorem collide_only (bits val : Nat) (s : State) : Only [.sys, .replies, .port, .link, .casc] s (collide bits val s) := by
  unfold collide
  dsimp only
  repeat' first
    | with_reducible exact Only.refl _ _
    | ((with_reducible apply Only.next (endTrans_only _ _ _)); · decide)
    | with_reducible apply Only.ite
    | ((with_reducible apply Only.mkThen)
       · intro p hp; cases p <;> first | exact absurd (by decide) hp | rfl | exact ⟨rfl, rfl⟩ | exact ⟨rfl, rfl, rfl, rfl, rfl⟩)

end Sys2Proof.Machine
end

