-- ==== Sys2Proof/Laws/Protect.lean ====
section
/-!
SUPPORT. What a protective fault does: the inhibit, the entry to SAFE and the axis that declares it.
-/

namespace Sys2Proof.Machine

theorem axis_modAxis (x : Nat) (f : Axis → Axis) (s : State) : axis (modAxis x f s) x = f (axis s x) := by
  unfold modAxis axis
  split <;> rfl

theorem axis_modAxis_other {x y : Nat} (hx : (x = 0) ≠ (y = 0)) (f : Axis → Axis) (s : State) : axis (modAxis x f s) y = axis s y := by
  unfold modAxis axis
  split <;> split <;> first | rfl | simp_all

/-- A change of one axis leaves everything else. -/
theorem modAxis_part (x : Nat) (f : Axis → Axis) (s : State) : Only [axPart x] s (modAxis x f s) := by
  unfold modAxis axPart
  split
  · exact ⟨fun p hp => by cases p <;> first | exact absurd (by decide) hp | rfl | exact ⟨rfl, rfl⟩ | exact ⟨rfl, rfl, rfl, rfl, rfl⟩⟩
  · exact ⟨fun p hp => by cases p <;> first | exact absurd (by decide) hp | rfl | exact ⟨rfl, rfl⟩ | exact ⟨rfl, rfl, rfl, rfl, rfl⟩⟩

/-- An operation that leaves both axes alone. -/
theorem axis_of_only {l : List StatePart} {s t : State} (h : Only l s t) (hl : StatePart.axA ∉ l ∧ StatePart.axB ∉ l) (x : Nat) :
    axis t x = axis s x := by
  unfold axis
  rw [show t.axA = s.axA from h.same .axA hl.1, show t.axB = s.axB from h.same .axB hl.2]

theorem setDev_devState (d : DevState) (s : State) : (setDev d s).sys.devState = d := by
  unfold setDev
  split
  · assumption
  · rfl

theorem opState_of_running {s : State} (hb : s.sys.devState ≠ .boot) (hr : s.sys.devState ≠ .recovery) : opState s = s.sys.devState := by
  unfold opState
  split <;> simp_all

theorem setOp_opState (d : DevState) (s : State) (hb : d ≠ .boot) (hr : d ≠ .recovery) : opState (setOp d s) = d := by
  unfold setOp
  split
  · next h _ => simp [opState, h]
  · next h _ => simp [opState, h]
  · rw [opState_of_running] <;> rw [setDev_devState] <;> assumption

/-- An operation that leaves the device state alone. -/
theorem opState_of_only {l : List StatePart} {s t : State} (h : Only l s t) (hl : StatePart.devState ∉ l ∧ StatePart.resume ∉ l) :
    opState t = opState s := by
  have e1 : t.sys.devState = s.sys.devState := h.same .devState hl.1
  have e2 : t.sys.resume = s.sys.resume := h.same .resume hl.2
  unfold opState
  rw [e1, e2]

theorem axisSafe_active {x y : Nat} {s : State} (h : (axis s y).faultActive = true) (hx : x = y ∨ (x = 0) ≠ (y = 0)) :
    axis (axisSafe x s) y = axis s y := by
  unfold axisSafe
  split
  · rfl
  · next hn =>
    obtain rfl | hx := hx
    · exact absurd (.inr h) hn
    · have : axis (modAxis x (axSafe (rd s) x) (modeDropped x s)) y = axis (modeDropped x s) y := axis_modAxis_other hx ..
      rw [this]
      exact axis_of_only (modeDropped_only x s) (by decide) y

theorem axesSafe_active {y : Nat} {s : State} (hy : y < 2) (h : (axis s y).faultActive = true) : axis (axesSafe s) y = axis s y := by
  have h0 : (0 : Nat) = y ∨ ((0 : Nat) = 0) ≠ (y = 0) := by
    obtain rfl | rfl : y = 0 ∨ y = 1 := by omega
    · exact .inl rfl
    · right; simp
  have h1 : (1 : Nat) = y ∨ ((1 : Nat) = 0) ≠ (y = 0) := by
    obtain rfl | rfl : y = 0 ∨ y = 1 := by omega
    · right; simp
    · exact .inl rfl
  unfold axesSafe
  split
  · have e := axisSafe_active h h0
    rw [axis_of_only (pwmGone_only _) (by decide), axisSafe_active (by rw [e]; exact h) h1, e]
  · rfl

/-- The entry to SAFE latches the inhibit in every state, and from a state of operation it is entered. -/
theorem enterSafe_declared (src inst detail : Nat) (share : Bool) (s : State) : safeDeclared s (enterSafe src inst detail share s) := by
  have h1 : (latchInhibit s).fire.faultInh = true := (cancelEdges_only false _).same .inhibit (by decide)
  unfold enterSafe
  dsimp only
  split
  · have o2 := setOp_opState .safe (latchInhibit s) (by decide) (by decide)
    have h2 : (setOp .safe (latchInhibit s)).fire.faultInh = true := ((setOp_only .safe _).same .inhibit (by decide)).trans h1
    have h3 : (axesSafe (dropFrames (setOp .safe (latchInhibit s)))).fire.faultInh = true :=
      ((axesSafe_only _).same .inhibit (by decide)).trans (((dropFrames_only _).same .inhibit (by decide)).trans h2)
    have o3 := (opState_of_only (axesSafe_only (dropFrames (setOp .safe (latchInhibit s)))) (by decide)).trans
      ((opState_of_only (dropFrames_only (setOp .safe (latchInhibit s))) (by decide)).trans o2)
    have h4 := ((logWrite_only src 3 inst detail (axesSafe (dropFrames (setOp .safe (latchInhibit s))))).same .inhibit (by decide)).trans h3
    have o4 := (opState_of_only (logWrite_only src 3 inst detail (axesSafe (dropFrames (setOp .safe (latchInhibit s))))) (by decide)).trans o3
    split
    · exact ⟨((ringSend_only ..).same .inhibit (by decide)).trans h4, fun _ => (opState_of_only (ringSend_only ..) (by decide)).trans o4⟩
    · exact ⟨h4, fun _ => o4⟩
  · next h => exact ⟨h1, fun k => absurd k h⟩

/-- An axis in its fault action is left alone by the entry to SAFE. -/
theorem enterSafe_axis {y : Nat} (src inst detail : Nat) (share : Bool) {s : State} (hy : y < 2) (h : (axis s y).faultActive = true) :
    axis (enterSafe src inst detail share s) y = axis s y := by
  have e1 := axis_of_only (latchInhibit_only s) (by decide) y
  unfold enterSafe
  dsimp only
  split
  · have e2 := (axis_of_only (dropFrames_only (setOp .safe (latchInhibit s))) (by decide) y).trans
      ((axis_of_only (setOp_only .safe (latchInhibit s)) (by decide) y).trans e1)
    have e3 := (axesSafe_active hy (by rw [e2]; exact h)).trans e2
    have e4 := (axis_of_only (logWrite_only src 3 inst detail (axesSafe (dropFrames (setOp .safe (latchInhibit s))))) (by decide) y).trans e3
    split
    · exact (axis_of_only (ringSend_only ..) (by decide) y).trans e4
    · exact e4
  · exact e1

theorem safeDeclared_of_before {s s0 t : State} (h : safeDeclared s0 t) (e : opState s0 = opState s) : safeDeclared s t :=
  ⟨h.1, fun k => h.2 (by rw [e]; exact k)⟩

theorem protective_declared (src inst detail : Nat) (s : State) : safeDeclared s (protective src inst detail s) :=
  safeDeclared_of_before (enterSafe_declared src inst detail true _) (opState_of_only (raiseEvent_only src inst detail s) (by decide))

theorem protective_axis {y : Nat} (src inst detail : Nat) {s : State} (hy : y < 2) (h : (axis s y).faultActive = true) :
    axis (protective src inst detail s) y = axis s y := by
  have e := axis_of_only (raiseEvent_only src inst detail s) (by decide) y
  exact (enterSafe_axis src inst detail true hy (by rw [e]; exact h)).trans e

/-- What a declared steering fault leaves on its own axis. -/
theorem declareAxis_axis {x : Nat} (cause : Nat) (s : State) (hx : x < 2) :
    axis (declareAxis x cause s) x =
      { axAct (actFor cause (faultAct (rd s) x)) { axis s x with pendMode := none } with
        cause := cause
        feCnt := if cause = 1 then satAdd 8 (axis s x).feCnt 1 else (axis s x).feCnt
        fltCnt := if cause = 2 then satAdd 8 (axis s x).fltCnt 1 else (axis s x).fltCnt } := by
  have e0 := axis_of_only (modeDropped_only x s) (by decide) x
  have ha : ∀ (n : Nat) (a : Axis), (axAct n a).faultActive = true := by
    intro n a
    unfold axAct
    dsimp only
    split
    · rfl
    · split <;> rfl
  unfold declareAxis
  rw [protective_axis _ _ _ hx, axis_of_only (pwmGone_only _) (by decide), axis_modAxis, e0]
  rw [axis_of_only (pwmGone_only _) (by decide), axis_modAxis]
  exact ha ..

theorem declareAxis_declared (x cause : Nat) (s : State) : safeDeclared s (declareAxis x cause s) := by
  refine safeDeclared_of_before (protective_declared 4 x cause _) ?_
  exact (opState_of_only (pwmGone_only ..) (by decide)).trans ((opState_of_only (modAxis_only ..) (by decide)).trans (opState_of_only (modeDropped_only x s) (by decide)))

end Sys2Proof.Machine
end

