-- ==== Sys2Proof/Laws/Requests.lean ====
section
/-!
SUPPORT. What the interpreter makes of a request that nothing holds up: `settle` moves nothing when the ports are quiet,
and a request that is served is answered by its opcode's meaning.
-/

namespace Sys2Proof.Machine

/-- With nothing waiting at the ports, and no reply owed to the ring, nothing moves. -/
theorem settle_quiet {s : State} (hb : s.port.buf = []) (hf : s.casc.fwd = []) (hq : s.link.rxQ = [])
    (hr : ∀ r ∈ s.port.replies, r.org ≠ .ring) : settle s = s := by
  have e1 : s.port.replies.filter (fun r => r.org != .ring) = s.port.replies :=
    List.filter_eq_self.mpr fun r h => by simpa using hr r h
  have e2 : s.port.replies.filter (fun r => r.org == .ring) = [] :=
    List.filter_eq_nil_iff.mpr fun r h => by simpa using hr r h
  have h1 : ringReplies s = s := by
    unfold ringReplies
    rw [e1, e2]
    rfl
  have h2 : flushFwd 8 s = s := by
    unfold flushFwd
    rw [hf]
    split <;> rfl
  unfold settle
  simp only [h1, h2, hb, hq, List.length_nil, drainOwn, linkPull]

/-- The ports stay quiet for a request when its meaning leaves them alone. -/
theorem serve_served {opc : Nat} {write : Bool} {body : Req → State → State} {q : Req} {s : State} (h : Served opc q s) :
    serve opc write true body q s = settle (body q s) := by
  obtain ⟨⟨hb, -, -, -⟩, hc, ho, hcrc, hd, hst, ha⟩ := h
  have hrun : runOpcode opc write true body q s = body q s := by
    unfold runOpcode
    rw [if_neg]
    · simp only [not_true_eq_false, if_false, busyWrite, ha, or_true, if_true]
    · split at hst <;> simp_all
  have hord : isOrder q s = false := by
    unfold isOrder
    cases h : q.org <;> simp_all
  unfold serve serveWith
  rw [hb]
  simp only [hc, if_true, interpret, hcrc, not_true_eq_false, if_false, hord, hd, hrun, Bool.false_eq_true]

theorem replyTo_replies (opc : Nat) (q : Req) (st : Nat) (pay : List Word) (s : State) :
    (replyTo opc q st pay s).port.replies =
      if st = 0 ∧ q.flags.toNat % 2 = 1 ∧ q.org ≠ .ring then s.port.replies else s.port.replies ++ [replyOf opc q st pay s] := by
  unfold replyTo
  split <;> rfl

end Sys2Proof.Machine
end

