-- ==== Sys2Proof/Machine/Jtag.lean ====
section
/-!
DEFINITION. The test access port: the controller of IEEE 1149.1, its instruction register and its scan registers over the
VIO18 and VIO33 pins (R407, R469). The spec names the standard and no command of the table drives TCK: `jtagClock` is what one
rising edge of TCK does (log entry 138).
-/

namespace Sys2Proof.Machine

/-- The controller's next state by TMS. -/
def tapNext (tms : Bool) : TapSt → TapSt
  | .logicReset => if tms then .logicReset else .idle
  | .idle => if tms then .selectDr else .idle
  | .selectDr => if tms then .selectIr else .captureDr
  | .captureDr => if tms then .exit1Dr else .shiftDr
  | .shiftDr => if tms then .exit1Dr else .shiftDr
  | .exit1Dr => if tms then .updateDr else .pauseDr
  | .pauseDr => if tms then .exit2Dr else .pauseDr
  | .exit2Dr => if tms then .updateDr else .shiftDr
  | .updateDr => if tms then .selectDr else .idle
  | .selectIr => if tms then .logicReset else .captureIr
  | .captureIr => if tms then .exit1Ir else .shiftIr
  | .shiftIr => if tms then .exit1Ir else .shiftIr
  | .exit1Ir => if tms then .updateIr else .pauseIr
  | .pauseIr => if tms then .exit2Ir else .pauseIr
  | .exit2Ir => if tms then .updateIr else .shiftIr
  | .updateIr => if tms then .selectDr else .idle

/-- Levels of the output pins of the chain whose levels the spec gives: FIRE, ARM, ZONE, SAFEn, CP_RDY, CP_IRQn and the steering
pins. -/
def scanOutputs (s : State) : List Bool :=
  (List.range 16).map (firePin s) ++ (List.range 4).map (armPin s) ++ (List.range 4).map (zonePin s)
    ++ [!safenLow s, cpRdy s, !irqPinLow s] ++ [pwmhPin s 0, pwmlPin s 0, enPin s 0, pwmhPin s 1, pwmlPin s 1, enPin s 1]

/-- BYPASS: an instruction of ones. -/
def tapBypass (t : Tap) : Bool := t.ir.all (· = true)

/-- A rising edge of TCK: the register of the controller's state captures, shifts toward TDO or is updated. `ins`: the levels at
the other pins of the chain. -/
def jtagClock (tms tdi : Bool) (ins : List Bool) (s : State) : State :=
  let t := s.port.tap
  let u := match t.st with
    | .captureDr => { t with dr := if tapBypass t then [false] else scanOutputs s ++ ins }
    | .shiftDr => { t with dr := t.dr.drop 1 ++ [tdi] }
    | .captureIr => { t with irShift := true :: List.replicate (Config.jtagIrLen - 1) false }
    | .shiftIr => { t with irShift := t.irShift.drop 1 ++ [tdi] }
    | .updateIr => { t with ir := t.irShift }
    | _ => t
  let v := tapNext tms t.st
  { s with port := { s.port with tap := if v = .logicReset then Tap.reset else { u with st := v } } }

/-- TRSTn low. -/
def jtagReset (s : State) : State := { s with port := { s.port with tap := Tap.reset } }

end Sys2Proof.Machine
end

