-- ==== Sys2Proof/Tests/Slice0.lean ====
section
/-!
SUPPORT. Tests: commands that are not well formed, the spec's worked examples, and for every statement with
hypotheses a state and operands that meet them.
-/

namespace Sys2Proof.Tests

open Sys2Proof.Machine

def withQueue (q : List Instr) (s : State) : State := { s with pending := q }
def inState (d : DevState) : State :=
  { State.reset with sys := { Sys.reset with devState := d, rdy := true, resetLow := false }, fire := { Fire.reset with faultInh := d == .safe } }
def withDomain (d : Nat) (s : State) : State := { s with pwr := { s.pwr with on := d :: s.pwr.on } }
/-- Axis `x` reads an SSI encoder, D19 up. -/
def ssiAxis (x : Nat) : State :=
  withDomain 19 { State.reset with cfg := { Cfg.reset with active := [(0x70 + x, [(1, 0x80101414#32)])] } }
/-- A request of the command port with this payload, for device 0. -/
def req (p : List Word) : Req := ⟨.cmdPort, 7, 0, 0, p, true⟩
/-- Outside RECOVERY and BOOT a request of the port is served at once. -/
theorem served (opc : Nat) (p : List Word) (s : State) (h : s.port.buf = [] ∧ s.port.replies = [] ∧ s.casc.fwd = [] ∧ s.link.rxQ = [] ∧
    canServe s = true ∧ devIdx s = 0 ∧ (if s.sys.devState = .recovery then inRecovery opc = true else opc ≠ 0x66) ∧ s.upd.act = 0) :
    Served opc (req p) s :=
  ⟨⟨h.1, h.2.1, h.2.2.1, h.2.2.2.1⟩, h.2.2.2.2.1, by simp [req], rfl, h.2.2.2.2.2.1.symm, h.2.2.2.2.2.2.1, h.2.2.2.2.2.2.2⟩
/-- D15 and D16 up, the link enabled on one lane each way, in a state with these lanes. -/
def linkState (st : LinkState) (l : List (Nat × Lane)) : State :=
  withDomain 15 (withDomain 16 { inState .idle with
    cfg := { Cfg.reset with active := [(0x80, [(1, 0x81000000#32)])] }
    link := { Link.reset with st := st, lanes := l } })
/-- D17 up, in IDLE, with this archive. -/
def archState (a : Arch) : State := withDomain 17 { inState .idle with arch := a }
/-- D18 up, the sequencer enabled under this pass trigger, in this phase. -/
def seqState (trig : Word) (p : HkPhase) : State :=
  withDomain 18 { State.reset with hk := { Hk.reset with phase := p }, cfg := { Cfg.reset with active := [(0x60, [(1, 0x80000000#32 ||| trig)])] } }
/-- D1, D9 up and the reference there. -/
def bankState : State := withDomain 1 (withDomain 9 { State.reset with pwr := { Pwr.reset with refLost := false } })
/-- A shot of emitter 0 on channel 0, edge 1 at cycle 1,000. -/
def shot0 : Shot := { makeShot (rd State.reset) State.reset 0 200 0 0 with sid := 1, group := [0], edges := [1000], fate := [0], fcyc := 1000, listenEnd := 2000 }
def req0 (k : ReqKind) : ParkReq := ⟨0, k, 1600, 1600, 0, none⟩
def win0 : Win :=
  { wid := 1, ch := 0, slot := 100, posA := 36, posB := 37, spareA := 70, spareB := 71, segA := 0, segB := 0, reason := .trigger, trig2 := false, hasTrig := true,
    stamp := 1600, gate := 0, gateSid := none, calSid := none, rtag := 0, sat := false, parkAt := 102, cycle := 0, first := 1600,
    stage := .reserved, raw := false, codes := [], carried := false, handed := false, rejoined := false }
/-- RUN, D9 up, its gap over, emitter 0 enabled. -/
def runFire : State :=
  withDomain 9 { inState .run with
    pwr := { Pwr.reset with refLost := false }
    fire := { Fire.reset with started := true }
    cfg := { Cfg.reset with active := [(3, [(6, 0x80000064#32)])] } }
/-- All of CORE's quarters up, with this shot and window. -/
def coreState (x : Shot) (l : List Win) : State :=
  withDomain 10 (withDomain 11 (withDomain 14 { bankState with fire := { Fire.reset with shots := [x] }, samp := { Samp.reset with wins := l } }))
/-- Device `id` of a cascade whose ring is up, D9 up. -/
def ringState (id : Nat) (d : DevState) : State :=
  let s := withDomain 9 (inState d)
  { s with sys := { s.sys with cascRole := true, cascId := id }, casc := { Casc.reset with ringUp := true } }
/-- The flash in use, this operation under way. -/
def flashState (o : Option FlashOp) : State :=
  { inState .idle with flash := { Flash.reset with used := true, op := o, table := { Flash.reset.table with dens := 25 } } }
/-- The link on two lanes each way. -/
def twoLanes (s : State) : State := { s with cfg := { s.cfg with active := [(0x80, [(1, 0x95000000#32)])] } }

/-! ### Commands that name no object of the device -/

theorem test_wf_refuses_request : (Instr.nop (req (List.replicate 1025 0))).wf = false := by decide +kernel
theorem test_wf_refuses_emitter : (Instr.firePulseEnd 16).wf = false := by decide
theorem test_wf_refuses_input : (Instr.rangeApplyIdle 260).wf = false ∧ (Instr.ringRelinkRetire 260 0).wf = false := by decide
theorem test_wf_refuses_channel : (Instr.zoneEventService 256).wf = false ∧ (Instr.stackedWindowEnter 256 0).wf = false := by decide
theorem test_wf_refuses_pin : (Instr.zoneHoldExpiry 4).wf = false ∧ (Instr.startTrigger 4 0).wf = false := by decide
theorem test_wf_refuses_group : (Instr.samplerFillDone 9).wf = false ∧ (Instr.gainTestStep 8 0).wf = false := by decide
theorem test_wf_refuses_engine : (Instr.engineTakeTask 64).wf = false := by decide
theorem test_wf_refuses_axis : (Instr.cmpReload 2).wf = false := by decide
theorem test_wf_refuses_lane : (Instr.laneLockLoss 8).wf = false := by decide
theorem test_wf_refuses_stream : (Instr.partFrameFlush 16).wf = false := by decide
theorem test_wf_refuses_device : (Instr.loss 8 true).wf = false ∧ (Instr.pkt 0 8 [] true true).wf = false := by decide
theorem test_wf_refuses_domain : (Instr.domainUp 20).wf = false ∧ (Instr.quarterDrainEnd 4).wf = false := by decide
theorem test_wf_refuses_instance : (Instr.protectiveFault 4 2 0).wf = false ∧ (Instr.faultClassify 10 0 0).wf = false := by decide
theorem test_wf_refuses_offset : (Instr.flashEraseRegister 0x1100001 true).wf = false ∧ (Instr.windowReadSuspend (2 ^ 26)).wf = false := by decide
theorem test_wf_refuses_copy : (Instr.bootHeaderErase 2).wf = false := by decide
theorem test_wf_takes_last : (Instr.firePulseEnd 15).wf = true ∧ (Instr.rangeApplyIdle 259).wf = true ∧ (Instr.domainUp 19).wf = true := by decide
/-- A command beyond the device faults; none is spelled by a word. -/
theorem test_fault_by_name : exec (.firePulseEnd 16) State.reset = .fault .noSuchObject := rfl
theorem test_no_word_spells_a_command : decodeTableWord 32 0x12 = none ∧ State.reset.withFetchWord 32 0x12 = State.reset := ⟨rfl, rfl⟩

/-! ### Worked examples of the spec -/

/-- R313: the CRC of "123456789". -/
theorem test_crc : crc32c [0x31, 0x32, 0x33, 0x34, 0x35, 0x36, 0x37, 0x38, 0x39] = 0xE3069283 := by decide +kernel
/-- 13_command_packets.md, "a COMMIT that misses the gap": the request's header and its reply's. -/
theorem test_commit_headers : header 0xC6 0x12 0x2B 0 0 0 = [0xC6, 0x12, 0x2B, 0, 0, 0, 0, 0xFD] ∧
    header 0x6C 0x12 0x2B 0x0C 0 1 = [0x6C, 0x12, 0x2B, 0x0C, 1, 0, 0, 0x4A] := by decide
/-- 04_fire_and_time.md, worked step under R91: eight steps of the LFSR, 17 ns, code 10. -/
theorem test_lfsr : lfsrStep 8 0x5A5A5A5A = 0x5A5A5A11 ∧ 0x5A5A5A11 % 256 = 17 ∧ 0x5A5A5A11 / 256 % 16 = 10 := by decide
/-- 04_fire_and_time.md, worked example: channel 141's delay at 47.5 °C, and SIN1's at 50 °C. -/
theorem test_delay_sets :
    let v := fun (t d : Int) => ({ t := t, d := d, g0 := 0x4000, g1 := 0x4000, g2 := 0x4000, ped := 0 } : TSet)
    setValue { CalCh.reset with sets := [v 320 327, v 440 339], single := none } TSet.d (95 * 32768) = 333 ∧
    setValue { CalCh.reset with sets := [v 320 318, v 480 322], single := none } TSet.d (50 * 65536) = 320 := by decide
/-- The same example: its ToF. -/
theorem test_tof :
    let s := { State.reset with cal := { Cal.reset with delays := [(0, [(141, 333)])] } }
    (withTof s { shot0 with frame := 0, sin := 1, s := some 896 }
      { ch := 141, sid := 1, e := 218453, amp := 129, width := 124, sat := false, lowconf := false, indigo := false, stacked := false, stale := false,
        rtag := 1, foreignCode := false, sOwn := none, dirOwn := none, tof := 0, cls := 0, eidx := 0, gap := false, nearFlag := false }).tof = 217544 := by
  decide
/-- 05_echo_engines.md, "one candidate through steps 5 and 6": δ and AMP. -/
theorem test_peak :
    let y := (List.replicate 12 0 ++ [480 * 8, 960 * 8, 720 * 8] ++ List.replicate 17 0 : Vals)
    peakShift y 13 = 43 ∧ ampField (peakAmp y 13) 1 = 129 := by decide
set_option maxRecDepth 4000 in
/-- 08_return_calibration.md, "a run after cooling": the old value at 52.75 °C, and the slew's 65th and 64th steps. -/
theorem test_slew : interp [(4000, 327), (5500, 339)] 5275 = 337 ∧ (slewStep 256 1 ⟨2, 2, 63⟩).o = 2 ∧ (slewStep 256 1 ⟨2, 2, 64⟩).o = 1 ∧
    (slewStep 256 1 ⟨2, 1, 191⟩).o = 1 ∧ (slewStep 256 1 ⟨2, 1, 192⟩).o = 0 := by decide
/-- 11_steering_engine.md, "OPEN to POSITION": CMP for the five drives at PER = 1,024. -/
theorem test_cmp :
    let r : Rd := fun id off => if id = 0x20 ∧ off = 1 then 0x04000000#32 else rd State.reset id off
    pwmPer r 0 = 1024 → [0x50000000, 0x48000000, 0x40000000, 0x38000000, 0x30000000].map (cmpOf r 0) = [832, 800, 768, 736, 704] := by decide
/-- 19_faults_and_service.md, "an engine retired": at 70 min (sub-interval 18) the event of sub-interval 0 has left the sum; the event at
85 min (sub-interval 22) retires the engine. -/
theorem test_engine_retired :
    let min_ := 300000000000
    let s := { inState .idle with flt := { Flt.reset with insts := [(65536 + 41, ⟨[(0, 1), (10, 1), (18, 1)], false⟩)] } }
    let a := { s with sys := { s.sys with now := 70 * min_ } }
    let b := { s with sys := { s.sys with now := 85 * min_ } }
    fltSum a 1 41 = 2 ∧ fltSum (fltCount 1 41 b) 1 41 = 3 ∧ faultN (rd b) 1 = 3 ∧
      (match exec (.faultClassify 1 41 0) b with | .next t => (engine t 41).retired && isLasting t 1 41 | _ => false) = true := by decide
/-- 02_return_inputs.md, R38: a shot's pre-fire gate opens 120 ns before F (119,897.05 ns in 04_fire_and_time.md's example at F 120,017). -/
theorem test_gate : inGate { shot0 with fcyc := 5 * 120017 } (5 * 119897) = true ∧ inGate { shot0 with fcyc := 5 * 120017 } (5 * 119897 - 1) = false := by
  decide
/-- FIPS 180-4's example message "abc", under SHA-384. -/
theorem test_sha384 : (sha384 [0x61, 0x62, 0x63]).take 8 = [0xCB, 0x00, 0x75, 0x3F, 0x45, 0xA3, 0x5E, 0x8B] := by decide +kernel
/-- FIPS 197: the S-box at 0x53 and the example of a 256-bit key. -/
theorem test_aes256 : subByte 0x53 = 0xED ∧
    aesBlock (List.range 32) ((List.range 16).map (0x11 * ·)) =
      [0x8E, 0xA2, 0xB7, 0xCA, 0x51, 0x67, 0x45, 0xBF, 0xEA, 0xFC, 0x49, 0x90, 0x4B, 0x49, 0x60, 0x89] := by decide +kernel
/-- IEC 60584-1's tables: K at 100 °C 4.096 mV, J 5.269, N 2.774, T 4.279 (this to a µV). -/
theorem test_thermocouples : [5, 6, 7, 8].map (fun c => (tcRef c (100 * 65536) + 500000) / 1000000) = [4096, 5269, 2774, 4279] := by decide +kernel

/-! ### Witnesses -/

theorem wit_StepTakesTheFrontCommand :
    (withQueue [.logBudgetRefill] State.reset).pending = [.logBudgetRefill] ∧ State.reset.pending = [] := by decide

theorem wit_EveryStepTakesExactlyOneCommand :
    (withQueue [.logBudgetRefill, .tokenAck] State.reset).pending = [.logBudgetRefill, .tokenAck] ∧
    (∃ t, step (withQueue [.logBudgetRefill, .tokenAck] State.reset) = .next t) := ⟨by decide, _, rfl⟩

theorem wit_WellFormedCommandsNeverStop :
    (Instr.firePulseEnd 15).wf = true ∧ (Instr.firePulseEnd 16).wf = false ∧
    exec (.firePulseEnd 16) State.reset = .fault .noSuchObject := ⟨by decide, by decide, rfl⟩

theorem wit_CopiesKeepReservedBits : cfgWf State.reset.cfg ∧ ∃ t, step State.reset = .next t :=
  ⟨by simp [cfgWf, copyWf, State.reset, Cfg.reset], _, rfl⟩

theorem wit_FlashKeepsItsForm : flashWf State.reset = true ∧ ∃ t, step State.reset = .next t := ⟨by decide, _, rfl⟩

theorem wit_OnlyTheHostLeavesSafe : (inState .safe).sys.devState = .safe ∧ ∃ t, exec .referenceLost (inState .safe) = .next t :=
  ⟨rfl, _, rfl⟩

theorem wit_SafeKeepsFireInhibited : (opState State.reset = .safe → State.reset.fire.faultInh = true) ∧
    (opState (inState .safe) = .safe ∧ (inState .safe).fire.faultInh = true) ∧ ∃ t, step (inState .safe) = .next t :=
  ⟨by decide, by decide, _, rfl⟩

theorem wit_QuadratureEdgesMoveP :
    let s := withDomain 19 State.reset
    let s1 := modAxis 1 (fun a => { a with encA := ⟨some false, 0⟩, encB := ⟨some false, 0⟩ }) s
    domUp s 19 = true ∧ encSsi (rd s) 1 = false ∧ (axis s 1).encA.level = none ∧ domUp s1 19 = true ∧ encSsi (rd s1) 1 = false ∧
    encFilt (rd s1) 1 ≤ (axis s1 1).encA.run + 3 ∧ domUp State.reset 19 = false ∧
    ∃ t, exec (.encoderEdge 1 [] []) s1 = .next t := ⟨by decide, by decide, by decide, by decide, by decide, by decide, by decide, _, rfl⟩
theorem wit_QuadratureEdgesMoveP_index :
    let s := modAxis 1 (fun a => { a with encZ := ⟨some false, 1000⟩ }) (withDomain 19 State.reset)
    let s1 := modAxis 1 (fun a => { a with idxFirst := false }) s
    domUp s 19 = true ∧ encSsi (rd s) 1 = false ∧ zQual (rd s) 1 = false ∧ (axis s 1).idxFirst = true ∧
      encFilt (rd s) 1 ≤ 1000 ∧ (axis s1 1).idxFirst = false ∧ indexTol (rd s1) 1 = 0 := by decide

theorem wit_SsiReadingsUnwrapIntoP :
    let s := ssiAxis 0
    domUp s 19 = true ∧ encSsi (rd s) 0 = true ∧ ssiBits (rd s) 0 = 16 ∧ (axis s 0).ssiLast = none := by decide

theorem wit_ReloadPointsLoadCmp :
    let s := withDomain 19 (withDomain 9 State.reset)
    domUp s 19 = true ∧ devRuns s = true ∧ loopN (rd s) 0 ≤ (axis s 0).reloads + 1 ∧ devRuns State.reset = false := by decide

theorem wit_ProtectiveFaultsEnterSafe :
    0 < instancesOf 6 ∧ 0 < instancesOf 7 ∧ 0 < instancesOf 0x10 ∧ 0 < instancesOf 1 ∧ isSlave State.reset = false ∧
    safeable (opState (inState .run)) = true := by decide
theorem wit_ProtectiveFaultsEnterSafe_driver :
    let s := modAxis 1 (fun a => { a with mode := .position }) (withDomain 19 State.reset)
    domUp s 19 = true ∧ (axis s 0).mode = .off ∧ (axis s 1).mode ≠ .off := by decide

theorem wit_LoopSamplesRunTheAxis :
    let s := modAxis 0 (fun a => { a with due := true, pendMode := some ⟨.off, false, false, false, some (req [])⟩ }) (withDomain 19 State.reset)
    domUp s 19 = true ∧ (axis s 0).due = true ∧ portsQuiet s ∧ (req []).org ≠ .ring := by
  refine ⟨by decide, by decide, ⟨rfl, rfl, rfl, rfl⟩, by decide⟩

theorem wit_SteeringRequestsAreCheckedThenTaken : Served 0x40 (req [0x30000000#32]) (withDomain 19 (inState .idle)) ∧
    (req [0x30000000#32]).payload.length = 1 := ⟨served _ _ _ (by decide), rfl⟩
theorem wit_SteeringRequestsAreCheckedThenTaken_move : Served 0x41 (req [0, 5]) (withDomain 19 (inState .idle)) ∧
    Served 0x41 (req [0x40000000#32, 5]) (withDomain 19 (inState .idle)) := ⟨served _ _ _ (by decide), served _ _ _ (by decide)⟩

theorem wit_RequestsAreCheckedBeforeTheirOpcode :
    plainRequest (.nop (req [1])) = some (0x00, req [1]) ∧ portsQuiet (inState .idle) ∧ canServe (inState .idle) = true ∧
    lenFits 0x00 (req [1]).payload = false ∧ devIdx (inState .idle) = 0 ∧ cascMaster (inState .idle) = false ∧
    inRecovery 0x10 = false ∧ portsQuiet (inState .recovery) ∧ canServe (inState .recovery) = true ∧ listedOpc.contains (0x99 : Byte).toNat = false := by
  refine ⟨rfl, ⟨rfl, rfl, rfl, rfl⟩, by decide, by decide, rfl, by decide, by decide, ⟨rfl, rfl, rfl, rfl⟩, by decide, by decide⟩

theorem wit_RequestsWaitInOrder :
    plainRequest (.nop (req [])) = some (0x00, req []) ∧ State.reset.port.buf = [] ∧ canServe State.reset = false := by decide

theorem wit_WritesAreBusyDuringAnActivation :
    let s := { inState .idle with upd := { Upd.reset with act := 1 } }
    plainRequest (.discard (req [])) = some (0x13, req []) ∧ portsQuiet s ∧ canServe s = true ∧ s.upd.act ≠ 0 ∧
    s.sys.devState ≠ .recovery ∧ lenFits 0x13 (req []).payload = true := by
  refine ⟨rfl, ⟨rfl, rfl, rfl, rfl⟩, by decide, by decide, by decide, by decide⟩

theorem wit_ReadOpcodesAnswerWhatTheyName : Served 0x00 (req []) (inState .run) ∧ Served 0x01 (req []) (inState .run) ∧
    Served 0x02 (req []) (inState .run) ∧ Served 0x53 (req []) (inState .run) :=
  ⟨served _ _ _ (by decide), served _ _ _ (by decide), served _ _ _ (by decide), served _ _ _ (by decide)⟩

theorem wit_SetParamWritesAllOrNothing : Served 0x10 (req [0x02000001#32, 0x00010000#32, 0x400003E8#32]) (inState .idle) ∧
    blockLen 0x02 = some 3 ∧ blockLen 0x06 = none ∧ wordInRange 0x02 1 0x400003E8#32 = true ∧ wordInRange 0x02 1 0xC00003E8#32 = false :=
  ⟨served _ _ _ (by decide), by decide⟩

theorem wit_GetParamReadsTheCopyNamed : Served 0x11 (req [0xE0000001#32, 8]) (inState .run) ∧ statusLen 0xE0 = some 9 ∧
    Served 0x11 (req [0x02000000#32, 0x40000003#32]) (inState .run) ∧ blockLen 0x02 = some 3 :=
  ⟨served _ _ _ (by decide), rfl, served _ _ _ (by decide), rfl⟩

theorem wit_DiscardAndCommitMoveTheSlates : Served 0x13 (req []) (inState .run) ∧ Served 0x12 (req []) (inState .run) ∧
    Served 0x12 (req []) (inState .idle) ∧ firstCross (inState .idle) crossRange = none ∧ firstCross (inState .idle) crossState = none ∧
    (inState .idle).cfg.token = false ∧ (inState .idle).cfg.held = none ∧ (inState .idle).sys.cascRole = false :=
  ⟨served _ _ _ (by decide), served _ _ _ (by decide), served _ _ _ (by decide), by decide, by decide, rfl, rfl, rfl⟩

theorem wit_RegisterReadsAnswerTheBlock : Served 0x14 (req [0xE0020#32, 1]) (inState .run) ∧
    regBlock 0xE0020 = some (.stat 0xE0, 0xE0000, 9) ∧ Served 0x14 (req [0x120080#32, 2]) (inState .run) ∧
    regBlock 0x120080 = some (.telList, 0x120000, 33) ∧ regBlock 0x120084 = none :=
  ⟨served _ _ _ (by decide), by decide, served _ _ _ (by decide), by decide, by decide⟩

theorem wit_RegisterWritesTakeEffect :
    Served 0x15 (req [0x110000#32, 4]) (inState .run) ∧ (req [0x110000#32, 4]).payload = [qw (req [0x110000#32, 4]) 0, 4] ∧
    Served 0x15 (req [0x108000#32, 4]) (inState .run) ∧ Served 0x15 (req [0x120004#32, 1]) (inState .run) ∧
    regBlock 0x110000 = some (.irqRegs, 0x110000, 3) ∧ regBlock 0x120004 = some (.telList, 0x120000, 33) ∧ tagListed 1 = true :=
  ⟨served _ _ _ (by decide), rfl, served _ _ _ (by decide), served _ _ _ (by decide), by decide, by decide, by decide⟩

theorem wit_StateFollowsItsTable : Served 0x20 (req [1]) (inState .safe) ∧ Served 0x20 (req [2]) (inState .idle) ∧
    Served 0x20 (req [3]) (inState .armed) ∧ Served 0x20 (req [3]) (inState .hold) ∧ Served 0x20 (req [4]) (inState .run) ∧
    protLasting (inState .safe) = false ∧ (inState .safe).sys.statePend = false :=
  ⟨served _ _ _ (by decide), served _ _ _ (by decide), served _ _ _ (by decide), served _ _ _ (by decide), served _ _ _ (by decide),
    by decide, by decide⟩

theorem wit_HousekeepingAndCalibrationRequests :
    Served 0x32 (req []) (withDomain 18 (inState .idle)) ∧ Served 0x33 (req [5, 0x03f01c00#32, 0x1e000000#32, 0x03e80100#32]) (withDomain 18 (inState .idle)) ∧
    wordInRange 0x61 2 0x03f01c00#32 = true ∧ Served 0x31 (req []) (inState .idle) ∧ (inState .idle).cal.lastGrp = none :=
  ⟨served _ _ _ (by decide), served _ _ _ (by decide), by decide, served _ _ _ (by decide), rfl⟩

theorem wit_FaultReadAndClear : Served 0x70 (req [0, 8]) (inState .idle) ∧ Served 0x71 (req [0xFF00FFFF#32]) (inState .idle) ∧
    (1 ≤ 1 ∧ 1 ≤ 9 ∧ 0 < instancesOf 1) ∧ instancesOf 0 = 0 ∧ (inState .idle).sys.rdy = true ∧ isLasting (inState .idle) 1 0 = false ∧
    fltSum (fltCount 1 0 (inState .idle)) 1 0 = 1 ∧ 1 < faultN (rd (inState .idle)) 1 ∧ ((fltInst (inState .idle) 1 0).counts.map (·.1)).Nodup ∧
    faultN (rd { inState .idle with cfg := { Cfg.reset with active := [(0xC0, [(1, 0x00014001#32)])] } }) 1 = 1 :=
  ⟨served _ _ _ (by decide), served _ _ _ (by decide), by decide, rfl, rfl, by decide, by decide, by decide, by decide, by decide⟩

theorem wit_PowerIsCheckedThenTaken : Served 0x21 (req [0x80201#32]) (inState .idle) ∧ Served 0x21 (req [1]) (inState .idle) ∧
    Served 0x21 (req [2]) (inState .idle) ∧ domOn (inState .idle) 0 = true ∧ domOn (inState .idle) 9 = false ∧
    (inState .idle).pwr.refPresent = true ∧ bit 0x80201#32 9 = true :=
  ⟨served _ _ _ (by decide), served _ _ _ (by decide), served _ _ _ (by decide), by decide⟩

theorem wit_DomainSwitchingsAreTakenInTurn :
    let s := fun (l : List (Nat × Bool)) => { State.reset with pwr := { Pwr.reset with steps := l } }
    (s []).pwr.steps = [] ∧ (s [(9, true)]).pwr.steps = (9, true) :: [] ∧ (s [(9, false)]).pwr.draining = [] ∧
    (let u := withDomain 10 (withDomain 9 (s [(10, false)]))
     u.pwr.steps = (10, false) :: [] ∧ domUp u 10 = true ∧ devRuns u = true) ∧
    (let u := { State.reset with pwr := { Pwr.reset with steps := [(9, false)], draining := [10] } }
     u.pwr.steps = (9, false) :: [] ∧ u.pwr.draining ≠ []) := by decide

theorem wit_DomainsComeUpWithTheirContent :
    (let u := { State.reset with pwr := { Pwr.reset with on := [0, 9], coming := [9] } }
     u.pwr.coming.contains 9 = true ∧ domOn u 9 = true ∧ u.pwr.refPresent = true) ∧
    (let u := withDomain 9 { State.reset with pwr := { Pwr.reset with on := [0, 1, 9], coming := [1], req := some (req [], [0, 1, 9]) } }
     u.pwr.coming.contains 1 = true ∧ domOn u 1 = true ∧ domUp u 9 = true) ∧ State.reset.pwr.coming.contains 3 = false := by decide

theorem wit_QuarterDrainsEnd :
    let s := withDomain 12 { State.reset with pwr := { Pwr.reset with draining := [12] } }
    s.pwr.draining.contains (10 + 2) = true ∧ s.pwr.draining.contains (10 + 1) = false ∧ domOn s 12 = true := by decide

theorem wit_LostClocksAreReported :
    domUp (withDomain 9 (inState .run)) 9 = true ∧ (withDomain 9 (inState .run)).pwr.refLost = false ∧ domUp State.reset 9 = false ∧
    (let u := { State.reset with pwr := { Pwr.reset with on := [0, 9], coming := [9] } }
     u.pwr.coming.contains 9 = true ∧ domOn u 9 = true) ∧ (inState .idle).sys.resetLow = false ∧ (inState .idle).sys.porLow = false := by decide

theorem wit_LinkTrainsThroughItsStates :
    let s := fun st (l : List (Nat × Lane)) => linkState st l
    linkOn (s .detect []) = true ∧ rxLanes (rd (s .detect [])) = 1 ∧ laneHears (s .detect []) 0 = true ∧ linkExit (s .train []) = none ∧
    linkExit (s .detect []) = none ∧ linkStopped (s .down []) = false ∧ (s .down []).pwr.lrefLost = false ∧ (s .up []).link.st = .up ∧
    ((lane (s .detect [(0, { Lane.reset with lock := true, partner := true })]) 0).lock = true) := by decide

theorem wit_LaneStateIsCheckedThenTaken : Served 0x22 (req [0x20000001#32]) (linkState .up []) ∧
    twf Lane.reset none (linkState .up []).link.lanes = true := ⟨served _ _ _ (by decide), rfl⟩

theorem wit_LanesFailAndRecoverAlone :
    let s := linkState .up []
    let s1 := linkState .up [(0, { Lane.reset with txLeaving := true })]
    let s2 := twoLanes (linkState .up [(1, { Lane.reset with lock := true })])
    laneHears s 0 = true ∧ (lane s1 0).txLeaving = true ∧ (lane (linkState .up [(0, { Lane.reset with retrain := 3 })]) 0).retrain = 3 ∧
    s2.link.st = .up ∧ 1 < rxLanes (rd s2) ∧ (lane s2 0).rxState = 0 ∧ (lane s2 0).retrain = 0 ∧ (lane s2 1).rxState = 0 ∧
    (lane s2 1).lock = true := by decide

theorem wit_LinkFramesAndBlocksFlow :
    let f : Ready := ⟨false, true, false, [1, 2, 3, 4], true⟩
    let s := { linkState .up [] with link := { (linkState .up []).link with txUse := [0], ready := [(0, [f])], cum := [(0, 4)] } }
    s.link.st = .up ∧ s.link.txUse = [0] ∧ (∀ p ∈ s.port.replies, p.org ≠ .link) ∧ nextStream s = some 0 ∧ tget [] s.link.ready 0 = [f] ∧
    laneHears s 0 = true := by decide

theorem wit_ArchiveRequestsAreCheckedThenTaken :
    let s := archState { Arch.reset with mounted := true, gen := 3 }
    Served 0x50 (req [0#32, 1#32]) s ∧ Served 0x51 (req [0#32]) s ∧ Served 0x52 (req [0x10#32]) s ∧ Served 0x22 (req [0x80000000#32]) s ∧
    domUp s 17 = true ∧ isLasting s 5 0 = false ∧ s.arch.mount = none ∧ s.arch.running = [] ∧ s.arch.mounted = true ∧ s.arch.gen ≠ 0 :=
  ⟨served _ _ _ (by decide), served _ _ _ (by decide), served _ _ _ (by decide), served _ _ _ (by decide), by decide⟩

theorem wit_ArchiveMountGoesThroughItsStages :
    let s := fun st => archState { Arch.reset with gen := 3, mount := some (st, 0, true), cmds := [⟨5, .mount st 0, 0, [], 0, [], 0, [], 0, false⟩] }
    mountStage (s .perst) = some .perst ∧ mountStage (s .linkWait) = some .linkWait ∧ mountStage (s .enableWait) = some .enableWait ∧
    (s .identify).arch.mount ≠ none ∧ (s .identify).arch.flushing = false ∧
    (s .identify).arch.cmds.find? (fun c => c.cid == 5) = some ⟨5, .mount .identify 0, 0, [], 0, [], 0, [], 0, false⟩ ∧
    domUp (s .identify) 17 = true ∧ (s .identify).arch.gen ≠ 0 ∧ (s .recover).arch.crit.testBit 3 = false := by decide
theorem wit_ArchiveMountGoesThroughItsStages_mounted :
    let s := archState { Arch.reset with gen := 3, mounted := true }
    domUp s 17 = true ∧ s.arch.mount = none ∧ s.arch.mounted = true ∧ s.arch.suspended = false := by decide

theorem wit_ArchiveCommandsEndOnceOrAreRetried :
    let s := fun u b => archState { Arch.reset with mounted := true, flushing := b, cmds := [⟨5, u, 0, [], 0, [], 0, [], 0, false⟩] }
    (s .flush1 false).arch.cmds.find? (fun c => c.cid == 6) = none ∧
    (s (.chunk 0 65 2) false).arch.cmds.find? (fun c => c.cid == 5) = some ⟨5, .chunk 0 65 2, 0, [], 0, [], 0, [], 0, false⟩ ∧
    (s .flush2 true).arch.cmds.find? (fun c => c.cid == 5) = some ⟨5, .flush2, 0, [], 0, [], 0, [], 0, false⟩ ∧ (s .flush2 true).arch.flushing = true := by
  decide

theorem wit_ArchiveRecordsFillTheirRings :
    let s := archState { Arch.reset with mounted := true, inQ := [(0, [1])], running := [0], rings := [(0, ⟨some 65, 0, [7], none, 0⟩)] }
    s.arch.inQ = [(0, [1])] ∧ s.arch.mounted = true ∧ s.arch.suspended = false ∧ 0 ∈ s.arch.running ∧ stagingFull 0 [1] s = false ∧
    (ringOf s 0).ext = some 65 ∧ (ringOf s 0).slot < 512 ∧ (ringOf s 0).buf ≠ [] ∧ ckptBusy s = false ∧ s.arch.flushing = false ∧
    domUp s 17 = true := by decide
theorem wit_ArchiveRecordsFillTheirRings_merge :
    let m : Merge := ⟨0, 0, 0, 0, 0, 0, 0, 0, []⟩
    let s := { archState { Arch.reset with mounted := true, stSlots := 1 } with stk := { Stk.reset with merges := [m] } }
    s.stk.merges = [m] ∧ s.arch.merging = none ∧ s.arch.cmds = [] ∧ stationSlot s (stationNo (rd s)) = none ∧
    ((List.range s.arch.stSlots).find? fun j => (lookupNat s.arch.dir j).isNone) = some 0 := by decide

/-- D18 up and a calibration run of group `g` in this form. -/
def runState (g : Nat) (x : CalGrp) : State :=
  withDomain 18 { State.reset with cal := { Cal.reset with grps := [(g, x)] }, cfg := { Cfg.reset with active := [(0x50, [(2, 0xFFFFFFFF#32)])] } }
theorem wit_CalibrationRunsGoThroughTheirPhases :
    let s := runState 8 { CalGrp.reset with phase := 1, phases := 1, readRes := 1, temp := some 0 }
    domUp s 18 = true ∧ (calGrp s 8).readRes ≠ 0 ∧ (calGrp s 8).phase = 1 ∧ (calGrp s 8).tStart = none ∧ (calGrp s 8).temp = some 0 ∧
    running s = false ∧ (calGrp (runState 8 { CalGrp.reset with phase := 3 }) 8).phase = 3 ∧
    ditherEn (runRd (runState 8 { CalGrp.reset with phase := 3 }) 8) = true ∧
    (calGrp (runState 0 { CalGrp.reset with phase := 4 }) 0).phase = 4 ∧ running (runState 0 { CalGrp.reset with phase := 4 }) = false := by
  decide

theorem wit_HousekeepingPassesRunTheirEntries :
    let s := fun p => seqState 0#32 p
    domUp (s .waitPass) 18 = true ∧ (s .waitPass).hk.phase = .waitPass ∧ (s .waitPass).hk.selfWait = false ∧ seqEn (rd (s .waitPass)) = true ∧ passTrig (rd (s .waitPass)) = 0 ∧
    passTrig (rd (seqState 0x20000000#32 .waitPass)) = 1 ∧ passTrig (rd (seqState 0x40000000#32 .waitPass)) = 2 ∧
    (s .toSwitch).hk.injCur = none ∧ (s .toSwitch).hk.bgBusy = false := by decide

theorem wit_HousekeepingResultsReachTheBuffer :
    let s := seqState 0x03000000#32 .converting
    let s1 := { s with hk := { s.hk with outQ := [7], unread := 4096, pauseAmber := true, notices := [1], inj := [tempRead 0] } }
    domUp s 18 = true ∧ s.hk.phase = .converting ∧ s.hk.bgBusy = false ∧ s1.hk.outQ = [7] ∧ amberEn (hkRd s1) = true ∧ s1.hk.notices = 1 :: [] ∧
    s1.hk.pauseAmber = true ∧ hkPaused s1 = true ∧ s1.hk.injCur = none ∧ s1.hk.phase ≠ .selfcal ∧ s1.hk.selfWait = false ∧ s1.hk.inj = [tempRead 0] ∧
    blankEn (hkRd s1) = true := by decide

theorem wit_TheConverterCalibratesAndMonitors :
    let s := seqState 0x00400000#32 .converting
    let s1 := { s with hk := { s.hk with selfWait := true, bgBusy := true, src := [(0, (1, 3))] } }
    let s2 := { s1 with hk := { s1.hk with declared := true, outQ := [7] } }
    domUp s1 18 = true ∧ s1.hk.selfWait = true ∧ s1.hk.selfBefore = 0 ∧ s1.hk.injCur = none ∧ s1.hk.phase ≠ .selfcal ∧ bgCalEn (rd s1) = true ∧
    s1.hk.bgBusy = true ∧ tget (0, 0) s1.hk.src 0 ≠ (0, 0) ∧ s1.hk.declared = false ∧ s2.hk.declared = true ∧ s2.hk.outQ = [] ++ [7] ∧
    (seqState 0#32 .selfcal).hk.phase = .selfcal := by decide

theorem wit_TheSamplerDecidesAndParks :
    let s := { bankState with samp := { Samp.reset with reqs := [req0 .trigger], gateReqs := [(0, 0, 1600, 1)] } }
    let s1 := { s with samp := { s.samp with wins := [win0] } }
    sampRuns s 0 = true ∧ devRuns s = true ∧ (req0 .trigger).at_ ≤ 16 * 101 ∧ liveWins s 0 = [] ∧ winAt s1 0 (anchorOf (req0 .trigger)) = some win0 ∧
    win0.reason ≠ .cal ∧ s1.samp.wins.filter (fun w => w.stage == .reserved && decide (w.parkAt ≤ 102)) = [win0] ∧
    freePairs s 0 = 0 ∧ sampRuns s ((groupChans 0).headD 0) = true ∧
    (let p := { s with samp := { s.samp with calReqs := [(0, 7, none)] } }; calParkOk p 7 none = true ∧ (0, 7, none) ∈ p.samp.calReqs) ∧
    win0.posA ≠ win0.posB ∧ 0 < freePairs { s with samp := { s.samp with chs := [(0, { SampCh.reset with filled := true })] } } 0 := by decide
theorem wit_TheSamplerDecidesAndParks_retire :
    let s := { bankState with samp := { Samp.reset with chs := [(0, { SampCh.reset with toRetire := [5], redun := [80] })] } }
    (sampCh s 0).redun = [80] ∧ tget (5 % 64) (sampCh s 0).ring (5 % 64) ∈ (sampCh s 0).toRetire := by decide

theorem wit_WindowsConvertAndSegmentsReturn :
    let w := { win0 with stage := .converted }
    let s := { bankState with samp := { Samp.reset with wins := [w], conv := some (3, false) }
                              fire := { Fire.reset with shots := [shot0] }, fronts := [(0, { Front.reset with thr := 100, armed := false })] }
    devRuns s = true ∧ s.samp.conv = some (3, false) ∧ s.samp.wins.filter (fun w => w.stage == .converted && !w.rejoined) = [w] ∧
    w.segA ∉ (sampCh s 0).toRetire ∧ sampRuns s 0 = true ∧ amber s 0 = false ∧ amberAt s 0 1500 = false ∧ shotOf s 1 = some shot0 ∧ 0 ∈ shot0.group ∧
    inListen shot0 1500 = true ∧ (front s 0).armed = false ∧ suppressed s 0 = false := by decide

theorem wit_GatesLatchRangesAndThresholds :
    let s := { bankState with fire := { Fire.reset with shots := [{ shot0 with ended := true }] }
                              fronts := [(0, { Front.reset with pend := some 2, blankedBy := [(1, 9000)] })] }
    shotOf s 1 = some { shot0 with ended := true } ∧ shot0.group = [0] ∧ domUp s (inputDom 0) = true ∧ shot0.evaluated = false ∧
    (front s 0).pend = some 2 ∧ amberEndAt s 1 0 = some 9000 ∧ eligible s { shot0 with ended := true } 0 = true ∧
    opState { s with sys := { s.sys with devState := .idle } } = .idle := by decide

theorem wit_CrossingsAreTriggersAndZoneDetections :
    let s := { bankState with
      fire := { Fire.reset with shots := [{ shot0 with sin := 0 }] }
      fronts := [(0, { Front.reset with thr := 100, armed := true }), (256, { Front.reset with thr := 100, armed := true }),
        (257, { Front.reset with armed := false })]
      zone := { Zone.reset with queue := [(0, [(1, 0)])], pins := [(0, ⟨true, 0⟩)] } }
    crosses s 0 1500 = true ∧ crosses s 40 1500 = false ∧ crosses s 256 1000 = true ∧ crosses s 257 1000 = false ∧ listening s 0 1500 = true ∧
    shotOf s 1 = some { shot0 with sin := 0 } ∧ (acceptEdges (rd s) { shot0 with sin := 0 } 1000).contains 0 = true ∧
    s.zone.queue.find? (fun e => e.1 == 0) = some (0, [(1, 0)]) ∧ (tget ZonePin.reset s.zone.pins 0).on = true := by decide

theorem wit_TheSequencerStepsAndDrivesShots_step : (nextShot runFire).isSome = true ∧
    ((nextShot runFire).bind fun p => stepForced runFire p.2) = some false ∧ wrapAdd 32 runFire.fire.shotCnt 1 < frameShots (rd runFire) ∧ runFire.fire.hdr = none ∧
    ((nextShot runFire).map fun p => tooClose (rd runFire) runFire p.1 p.2) = some false ∧ runFire.fire.faultInh = false ∧
    runFire.fire.velInh = false ∧ dwellCount runFire (dwellBin runFire) + shotWeight (rd runFire) 0 ≤ dwellBudget (rd runFire) := by decide
theorem wit_TheSequencerStepsAndDrivesShots :
    let x := { shot0 with sin := 0, s := none, edges := [1000, 1200], fate := [0, 0] }
    let s := { bankState with fire := { Fire.reset with shots := [x] } }
    shotOf s 1 = some x ∧ x.fate.getD 0 2 = 0 ∧ inhibited s = false ∧ devRuns s = true ∧ 1 ∉ x.fate ∧ x.sStamp = none ∧
    x.ended = false ∧ x.group.Nodup ∧ domUp s 9 = true ∧ opState s ≠ .run ∧ opState runFire = .run := by decide

theorem wit_WindowsReachTheirEngines :
    let w := { win0 with stage := .converted }
    let s := coreState shot0 [w]
    nextHandoff s 0 = some w ∧ allRetired s = false ∧ claimOf s w = some 1 ∧
    shotOf s 1 = some shot0 ∧ shot0.released = false ∧ homeEngine s 0 = some 0 ∧ (engine s 0).queue.length < 64 ∧
    claimOf (coreState { shot0 with group := [] } [w]) w = none ∧ startServers s ≠ [] ∧ engineIdle s 0 = true ∧ 0 ∈ startServers s ∧
    codedAt s shot0 0 = false := by decide
theorem wit_WindowsReachTheirEngines_queues :
    let a := Task.win win0 1 0
    let u : Stack := ⟨0, 0, 0, 0, 0, 0, 0, 2, [], [], some 1⟩
    let q : Spill := ⟨0, 0, [⟨0, 0, 0, false, Hist.empty⟩], 0, 0, 0, none, none, false⟩
    let s := coreState shot0 []
    let s1 := { s with
      eng := { Eng.reset with engines := [(1, { Engine.reset with queue := [a, a, a, a, a, a, a, a, a, a, a, a, a, a, a, a] }), (2, { Engine.reset with cur := some a })] }
      stk := { Stk.reset with openStacks := [u], spills := [q] } }
    s1.stk.openStacks.find? (fun u => u.ch == 0 && u.idx == 0 && u.claim.isSome) = some u ∧ u.owed.any (gateLive s1 0 0) = false ∧
    (engine s1 1).queue.find? (mayStart s1) = some a ∧ victimOf (rd s1) s1 0 = some 1 ∧ (engine s1 2).cur = some a ∧
    s1.stk.spills = [q] ∧ q.items = [⟨0, 0, 0, false, Hist.empty⟩] ∧ spillBlocked q ⟨0, 0, 0, false, Hist.empty⟩ s1 = false ∧
    { s1 with stk := { s1.stk with spills := [{ q with since := some 1 }] } }.stk.spills = [{ q with since := some 1 }] := by decide

theorem wit_GroupsAreFinishedAndReleased :
    let x := { shot0 with ended := true, coded := [0] }
    let s0 := coreState x []
    let s := { s0 with
      samp := { s0.samp with conv := some (2, false) }
      eng := { Eng.reset with finWait := [(1, 0, 0)], engines := [(3, { Engine.reset with cur := some (.fin 1 0 0) })] } }
    let s1 := { s with fire := { s.fire with shots := [{ x with finMade := [0] }] } }
    shotOf s 1 = some x ∧ windowsIn s x = true ∧ 0 ∈ x.coded ∧ 0 ∉ x.finMade ∧ (allTasks s).any (isWinOf 1 0) = false ∧
    homeEngine s 0 = some 0 ∧ (engine s 0).queue.length < 64 ∧ s.eng.finWait.find? (fun p => homeEngine s p.2.1 == some 0) = some (1, 0, 0) ∧
    (engine s 3).cur = some (.fin 1 0 0) ∧ engineUp s 0 = true ∧ eccUp s 0 .localMem = true ∧ s.sys.rdy = false ∧ { s.sys with rdy := true }.rdy = true ∧ s.upd.running ≠ 7 ∧ oldBankBusy s = false ∧ oldestShot s1 = some { x with finMade := [0] } ∧
    groupReady s1 { x with finMade := [0] } = true ∧ atHorizon { s1 with sys := { s1.sys with cyc := 1000000 } } { x with finMade := [0] } = true := by
  decide

theorem wit_FramesEndInAGap :
    let s := { withDomain 19 runFire with fire := { runFire.fire with posCell := 5 } }
    canEnd (advTo 0 s) = true ∧ devRuns s = true ∧ cascMaster s = false ∧ ownsFrames s = true ∧ running s = true ∧ s.cfg.token = false ∧
    runAwaits s = false ∧ s.sys.cascRole = false ∧ posCellOf (rd s) (coreAngle (advTo 0 s) 0) ≠ s.fire.posCell ∧ windowsOver s 0 = true ∧ domUp s 19 = true ∧ frameMode (rd s) = 1 ∧
    frameMode (rd { s with cfg := { s.cfg with active := [(2, [(1, 0x80000000#32)])] } }) = 2 := by decide
theorem wit_FramesEndInAGap_gaps :
    let s := { runFire with fire := { runFire.fire with ending := some ⟨0, 0, false, false⟩, gap := true, opens := true, tf := 9 } }
    let a := { withDomain 9 (inState .armed) with pwr := runFire.pwr, sys := { (inState .armed).sys with statePend := true, stateTarget := 3 } }
    let v := { runFire with sys := { runFire.sys with cascRole := true, cascId := 1 }, casc := { Casc.reset with enumOk := true } }
    s.fire.gap = true ∧ s.fire.tf ≤ (50 + 4) / 5 ∧ allStepped s 0 = true ∧ opState a = .armed ∧ a.sys.stateTarget = 3 ∧ devRuns a = true ∧
    ownsFrames v = false ∧ v.sys.timeSet = none ∧ v.fire.started = true ∧ 5 < ((100 : Int) - 5 * v.fire.gapAt).natAbs ∧ v.casc.events = [] := by
  decide

theorem wit_TheTokenMakesTheSetActive :
    let s := { inState .safe with cfg := { Cfg.reset with token := true, waiting := [.core], fixedBlocks := [2] } }
    s.cfg.token = true ∧ ClkDom.core ∈ s.cfg.waiting ∧ ClkDom.sup ∉ s.cfg.waiting ∧ opState (inState .safe) = .safe ∧
    (inState .safe).cfg.token = false ∧ windowsOver (inState .safe) 0 = true ∧
    { s with cfg := { s.cfg with waiting := [] } }.cfg.waiting = [] := by decide

theorem wit_StrapsAreSampledOnlyAtRelease : State.reset.sys.resetLow = true ∧
    (∃ t, exec (.resetnRelease true 1 true State.reset.flash.table) State.reset = .next t) ∧
    ∃ t, exec .referenceLost (inState .idle) = .next t := ⟨rfl, ⟨_, rfl⟩, _, rfl⟩

theorem wit_ResetClearsAndTheBootStarts :
    let b := { State.reset with sys := { Sys.reset with resetLow := false }, upd := { Upd.reset with act := 4 } }
    let w := { inState .run with upd := { Upd.reset with act := 5 } }
    State.reset.sys.resetLow = true ∧ State.reset.sys.porLow = false ∧ ({ Sys.reset with porLow := true } : Sys).porLow = true ∧
    b.upd.act = 4 ∧ (bootRec b).trial = none ∧ ({ b with upd := { b.upd with act := 5 } }).sys.devState = .boot ∧ b.sys.resume = none ∧
    w.upd.act = 5 ∧ w.sys.devState ≠ .boot ∧ portsQuiet w ∧ (inState .run).sys.resetLow = false ∧ (inState .run).sys.porLow = false ∧
    (inState .run).upd.act = 0 := ⟨rfl, rfl, rfl, rfl, by decide, rfl, rfl, rfl, by decide, ⟨rfl, rfl, rfl, rfl⟩, rfl, rfl, rfl⟩

theorem wit_TheFlashPortProgramsAndErases :
    let s := flashState none
    ({ s with flash := { s.flash with page := some (0x1100040, [1]) } }).flash.op = none ∧
    (flashState (some ⟨0x1200000, [7], 0, 0, 0⟩)).flash.op = some ⟨0x1200000, [7], 0, 0, 0⟩ ∧ s.flash.used = true ∧ 0x1200000 < flashTop s ∧
    ({ s.cal with interval := true, unsaved := [1] }).unsaved ≠ [] ∧ s.cal.unsaved = [] ∧ s.cal.storing = none ∧ s.upd.download = false ∧
    pickFrame s.flash.bytes none = some 0 ∧ Served 0x30 (req [0x0200#32]) s ∧
    (List.range 9).filter (fun g => (fld (qw (req [0x0200#32]) 0) 8 0).testBit g) = [] :=
  ⟨rfl, rfl, rfl, by decide, by decide, rfl, rfl, rfl, by decide, served _ _ _ (by decide), by decide⟩
theorem wit_TheFlashPortProgramsAndErases_copy :
    let s := { flashState none with flash := { (flashState none).flash with bytes := [(0x7FF00, 0)] } }
    2047 ∈ bootSlots s.flash.bytes 0 := by decide

theorem wit_TheRingClosesBreaksAndForwards :
    let m := ringState 0 .idle
    let v := ringState 1 .run
    m.sys.cascRole = true ∧ domUp m 9 = true ∧ isMaster m = true ∧ isSlave v = true ∧ v.casc.ringUp = true ∧ faultShare (rd m) = true ∧
    faultShare (rd { m with cfg := { Cfg.reset with active := [(0xA0, [(1, 0#32)])] } }) = false ∧
    ({ m.casc with waitBreak := true }).waitBreak = true ∧ Served 0x80 (req []) m ∧ Served 0x80 (req []) (inState .idle) ∧
    (req []).org ≠ .ring ∧ portsQuiet { m with casc := { m.casc with enumReq := some (req [], false) } } ∧
    ((⟨devIdx m, true, 0⟩ :: [⟨1, true, 5⟩] : List EnumEntry).map (·.idx)).Nodup ∧ 1 ≠ devIdx m ∧ ownBusy m = false :=
  ⟨rfl, by decide, rfl, rfl, rfl, by decide, by decide, rfl, served _ _ _ (by decide), served _ _ _ (by decide), by decide,
    ⟨rfl, rfl, rfl, rfl⟩, by decide, by decide, by decide⟩
set_option maxRecDepth 8000 in
theorem wit_TheRingClosesBreaksAndForwards_reply :
    let s := ringState 0 .idle
    let f : Fwd := ⟨1, 0, req [], none⟩
    let p := packet 0x6C 0 7 0 1 []
    packetCrcOk p = true ∧ p.getD 1 0 = f.opc ∧ p.getD 2 0 = f.req.seq ∧ f.req.flags.toNat % 2 = 0 ∧ s.link.rxQ = [] := by decide

/-- A slave with this schedule event known. -/
def eventState (d : DevState) (ev : SchedEvent) : State :=
  let s := ringState 1 d
  { s with casc := { s.casc with enumOk := true, events := [(ev, 5, false)] }, pwr := { s.pwr with refLost := false }
           fire := { s.fire with started := true }, cfg := { s.cfg with active := [(3, [(1, 0xFFFFFFFF#32), (6, 0x80000064#32)])] } }
theorem wit_FramesAndTimeAreSharedOnTheRing :
    let m := withDomain 9 (inState .idle)
    Served 0x23 (req [4000, 0]) m ∧ domUp m 9 = true ∧ isSlave m = false ∧ portsQuiet m ∧ (req [4000, 0]).org ≠ .ring ∧
    isMaster (ringState 0 .idle) = true ∧ ({ Sys.reset with tsAt := 7 }).tsAt ≠ 0 ∧ ({ Casc.reset with badSched := some (.cross 9) }).badSched = some (.cross 9) ∧ ({ Casc.reset with tsWait := some [1] }).tsWait = some [1] ∧
    devRuns (eventState .armed (.cross 100)) = true ∧ canFollow (eventState .armed (.cross 100)) = true ∧
    isSlave (eventState .armed (.cross 100)) = true ∧ (eventState .armed (.cross 100)).casc.ringUp = true :=
  ⟨served _ _ _ (by decide), by decide, rfl, ⟨rfl, rfl, rfl, rfl⟩, by decide, rfl, by decide, rfl, rfl, by decide, by decide, rfl, rfl⟩
theorem wit_FramesAndTimeAreSharedOnTheRing_events :
    nextEvent isAnchor (eventState .armed (.anchor 9)) = some (.anchor 9, 5) ∧
    nextEvent isCross (eventState .run (.cross 900)) = some (.cross 900, 5) ∧ running (eventState .run (.cross 900)) = true ∧
    schedPos (rd (eventState .run (.cross 900))) = true ∧ enabledEmitters (eventState .run (.cross 900)) = [0] ∧
    5 ≤ 5 * (900 + emPhase (rd (eventState .run (.cross 900))) 0 - 200) ∧
    nextEvent isFrameEnd (eventState .run (.frameEnd 9 1 99)) = some (.frameEnd 9 1 99, 5) ∧
    (eventState .run (.frameEnd 9 1 99)).cfg.token = false := by decide

/-- CP_CSn low in this transaction. -/
def portState (x : Trans) : State := { inState .idle with port := { Port.reset with csLow := true, tr := some x } }
theorem wit_ThePortFramesPacketsAndTelemetry :
    let x : Trans := ⟨0xC2, none, [], false, false, false, 0, 16, 0, true, false⟩
    let l := packet 0xC6 0x12 0x2B 0 0 []
    let s := portState { x with action := some 0xA5, bytes := l }
    inReset (inState .idle) = false ∧ (inState .idle).port.csLow = false ∧ transRefused x = false ∧ transRefused { x with statusByte := 0 } = true ∧
    l.length = packetLen l ∧ headerOk l = true ∧ hdrLen l = 0 ∧ (l.take 9).length < packetLen (l.take 9) ∧ canServe s = true ∧
    s.port.csLow = true ∧ x.statusByte.getLsbD 6 = true ∧ (inState .idle).port.telOn = false ∧ (inState .idle).sys.rdy = true ∧
    (0x77 : Byte) ∉ ([0x00, 0xA5, 0x5A] : List Byte) := by decide
theorem wit_ThePortFramesPacketsAndTelemetry_quiet :
    portsQuiet (portState ⟨0xC2, some 0xA5, [0xC6], false, false, false, 0, 16, 0, true, false⟩) := ⟨rfl, rfl, rfl, rfl⟩

theorem wit_UpdateRequestsAreCheckedThenTaken :
    let s := inState .idle
    let d := { s with upd := { s.upd with download := true, total := 8 } }
    Served 0x60 (req [416, 416, 0]) s ∧ Served 0x60 (req [0, 0, 0]) (inState .recovery) ∧ Served 0x61 (req [0, 1, 2]) d ∧ d.upd.download = true ∧
    Served 0x62 (req []) d ∧ Served 0x63 (req []) s ∧ Served 0x64 (req []) (ringState 0 .run) ∧ isMaster (ringState 0 .run) = true ∧
    others (ringState 0 .run) = [] ∧ Served 0x65 (req []) s ∧ Served 0x66 (req [0]) (inState .recovery) ∧ (inState .recovery).sys.devState = .recovery :=
  ⟨served _ _ _ (by decide), served _ _ _ (by decide), served _ _ _ (by decide), rfl, served _ _ _ (by decide), served _ _ _ (by decide),
    served _ _ _ (by decide), rfl, by decide, served _ _ _ (by decide), served _ _ _ (by decide), rfl⟩

theorem wit_UpdatesAreActivatedOrFallBack :
    let v := ringState 1 .run
    let m := ringState 0 .run
    let a := { m with upd := { m.upd with act := 1, actMaster := true }, casc := { m.casc with updWait := [1], updOk := true } }
    isSlave v = true ∧ domUp v 9 = true ∧ isMaster a = true ∧ 1 ∈ a.casc.updWait ∧ a.casc.updWait.filter (· ≠ 1) = [] ∧ onTrial m = false ∧
    { v.upd with act := 3 }.act = 3 ∧ (flashState (some ⟨0x100000, [], 0x10000, 3, 0⟩)).flash.op = some ⟨0x100000, [], 0x10000, 3, 0⟩ ∧
    portsQuiet m ∧ (req []).org ≠ .ring := ⟨rfl, by decide, rfl, by decide, by decide, by decide, rfl, rfl, ⟨rfl, rfl, rfl, rfl⟩, by decide⟩
/-- Slot A runs on trial in a cascade: the one record of the boot header says so. -/
def trialState : State :=
  let r := { bootDefault with seq := 1, trial := some 0, cascade := true, confirmS := 60 }
  let f := (flashState none).flash
  { flashState none with
    flash := { f with bytes := ((bootBytes r).zipIdx.map fun p => (p.2, p.1)).filter fun p => p.2 != 0xFF }
    upd := { Upd.reset with running := 0 } }
theorem wit_UpdatesAreActivatedOrFallBack_trial : onTrial trialState = true := by decide +kernel

end Sys2Proof.Tests
end

section
/-!
SUPPORT. What every command does to the straps and to the parameter copies, said once: `exec_lawful`. Every command
answers a next state, or the one fault noSuchObject when it is not well formed; in the next state the straps are those of
before but for a release of RESETn (R12), and copies that met the field maps still do (R8, R10).
-/

namespace Sys2Proof.Machine

/-! ### The straps and the parameter copies -/

/-- CASC_ROLE, CASC_ID and BOOT_SRC as sampled (R12). -/
def Sys.straps (y : Sys) : Bool × Nat × Bool := (y.cascRole, y.cascId, y.bootSrc)

/-- How a device is set up: its straps and its parameter copies. -/
abbrev Setup := (Bool × Nat × Bool) × Cfg

/-- The setup of a state. -/
def setup (s : State) : Setup := (s.sys.straps, s.cfg)

/- `simp` reads the setup off a record of the model by the next three lemmas. They are not `rfl` for `simp`: a step by
definition would leave the kernel to compare the records field by field. -/

@[simp] theorem straps_mk (y : Sys) (now cyc free devState resume resetLow porLow a b c d e f g h i j k l m n o p q r) :
    Sys.straps ⟨now, cyc, free, devState, resume, resetLow, porLow, y.cascRole, y.cascId, y.bootSrc,
      a, b, c, d, e, f, g, h, i, j, k, l, m, n, o, p, q, r⟩ = y.straps := .trans rfl rfl

@[simp] theorem setup_mk (a y c d e f g h i j k l m n o p q r t u v w) :
    setup ⟨a, y, c, d, e, f, g, h, i, j, k, l, m, n, o, p, q, r, t, u, v, w⟩ = (y.straps, c) := .trans rfl rfl

@[simp] theorem setup_eta (s : State) : (s.sys.straps, s.cfg) = setup s := .trans rfl rfl

@[simp] theorem setup_ite (c : Prop) [Decidable c] (s t : State) : setup (if c then s else t) = if c then setup s else setup t :=
  apply_ite setup c s t

@[simp] theorem each_setup {α : Type} {f : α → State → State} (hf : ∀ a t, setup (f a t) = setup t) (l : List α) (s : State) :
    setup (each l f s) = setup s := by
  unfold each
  induction l generalizing s with
  | nil => rfl
  | cons a r ih => exact (ih _).trans (hf a s)

/-- An operation that leaves SYS and the parameter copies leaves the setup. -/
theorem Only.setup_eq {l : List StatePart} {s t : State} (h : Only l s t) (hl : (l.contains .sys || l.contains .cfg) = false) :
    setup t = setup s := by
  obtain ⟨hsys, hcfg⟩ : StatePart.sys ∉ l ∧ StatePart.cfg ∉ l := by simpa using hl
  have hy : t.sys = _ := h.same .sys hsys
  have hc : t.cfg = s.cfg := h.same .cfg hcfg
  unfold setup
  rw [hy, hc]
  rfl

/-! ### Operations of several callers that leave the setup -/

@[simp] theorem takeFree_setup (n : Nat) (s : State) : setup (takeFree n s).2 = setup s := (takeFree_only ..).setup_eq rfl

@[simp] theorem advTo_setup (t : Nat) (s : State) : setup (advTo t s) = setup s := (advTo_only ..).setup_eq rfl

@[simp] theorem advNow_setup (n : Nat) (s : State) : setup (advNow n s) = setup s := (advNow_only ..).setup_eq rfl

@[simp] theorem irq_setup (k : Nat) (s : State) : setup (irq k s) = setup s := (irq_only ..).setup_eq rfl

@[simp] theorem setDev_setup (d : DevState) (s : State) : setup (setDev d s) = setup s := (setDev_only ..).setup_eq rfl

@[simp] theorem setOp_setup (d : DevState) (s : State) : setup (setOp d s) = setup s := (setOp_only ..).setup_eq rfl

@[simp] theorem modFront_setup (c : Nat) (f : Front → Front) (s : State) : setup (modFront c f s) = setup s :=
  (modFront_only ..).setup_eq rfl

@[simp] theorem modEmit_setup (e : Nat) (f : Emit → Emit) (s : State) : setup (modEmit e f s) = setup s := (modEmit_only ..).setup_eq rfl

@[simp] theorem modSampCh_setup (c : Nat) (f : SampCh → SampCh) (s : State) : setup (modSampCh c f s) = setup s :=
  (modSampCh_only ..).setup_eq rfl

@[simp] theorem modEngine_setup (k : Nat) (f : Engine → Engine) (s : State) : setup (modEngine k f s) = setup s :=
  (modEngine_only ..).setup_eq rfl

@[simp] theorem modCalCh_setup (c : Nat) (f : CalCh → CalCh) (s : State) : setup (modCalCh c f s) = setup s :=
  (modCalCh_only ..).setup_eq rfl

@[simp] theorem modCalGrp_setup (g : Nat) (f : CalGrp → CalGrp) (s : State) : setup (modCalGrp g f s) = setup s :=
  (modCalGrp_only ..).setup_eq rfl

@[simp] theorem modAxis_setup (x : Nat) (f : Axis → Axis) (s : State) : setup (modAxis x f s) = setup s := (modAxis_only ..).setup_eq rfl

@[simp] theorem modLane_setup (k : Nat) (f : Lane → Lane) (s : State) : setup (modLane k f s) = setup s := (modLane_only ..).setup_eq rfl

@[simp] theorem modShot_setup (sid : Nat) (f : Shot → Shot) (s : State) : setup (modShot sid f s) = setup s :=
  (modShot_only ..).setup_eq rfl

@[simp] theorem putItem_setup (tag : Nat) (v : Int) (s : State) : setup (putItem tag v s) = setup s := (putItem_only ..).setup_eq rfl

@[simp] theorem replyTo_setup (opc : Nat) (q : Req) (st : Nat) (pay : List Word) (s : State) : setup (replyTo opc q st pay s) = setup s :=
  (replyTo_only ..).setup_eq rfl

@[simp] theorem logWrite_setup (src kind inst detail : Nat) (s : State) : setup (logWrite src kind inst detail s) = setup s :=
  (logWrite_only ..).setup_eq rfl

@[simp] theorem logNote_setup (src kind inst : Nat) (s : State) : setup (logNote src kind inst s) = setup s :=
  (logNote_only ..).setup_eq rfl

@[simp] theorem raiseEvent_setup (src inst detail : Nat) (s : State) : setup (raiseEvent src inst detail s) = setup s :=
  (raiseEvent_only ..).setup_eq rfl

@[simp] theorem raiseOpen_setup (src inst : Nat) (s : State) : setup (raiseOpen src inst s) = setup s := (raiseOpen_only ..).setup_eq rfl

@[simp] theorem loadRanges_setup (slot : Nat) (s : State) : setup (loadRanges slot s) = setup s := (loadRanges_only ..).setup_eq rfl

@[simp] theorem startProg_setup (a : Nat) (b : List Byte) (user : Nat) (s : State) : setup (startProg a b user s) = setup s :=
  (startProg_only ..).setup_eq rfl

@[simp] theorem flashNext_setup (s : State) : setup (flashNext s) = setup s := (flashNext_only ..).setup_eq rfl

@[simp] theorem opEnd_setup (completed good : Bool) (s : State) : setup (opEnd completed good s) = setup s := (opEnd_only ..).setup_eq rfl

@[simp] theorem modHkEnt_setup (n : Nat) (f : HkEnt → HkEnt) (s : State) : setup (modHkEnt n f s) = setup s :=
  (modHkEnt_only ..).setup_eq rfl

@[simp] theorem hkOut_setup (v : Nat) (s : State) : setup (hkOut v s) = setup s := (hkOut_only ..).setup_eq rfl

@[simp] theorem biasResult_setup (n : Nat) (good : Option Int) (s : State) : setup (biasResult n good s) = setup s :=
  (biasResult_only ..).setup_eq rfl

@[simp] theorem takeXtal_setup (s : State) : setup (takeXtal s) = setup s := (takeXtal_only ..).setup_eq rfl

@[simp] theorem nextEntry_setup (s0 : State) : setup (nextEntry s0) = setup s0 := (nextEntry_only ..).setup_eq rfl

@[simp] theorem startPass_setup (s : State) : setup (startPass s) = setup s := (startPass_only ..).setup_eq rfl

@[simp] theorem pwmOrConv_setup (s : State) : setup (pwmOrConv s) = setup s := (pwmOrConv_only ..).setup_eq rfl

@[simp] theorem pwmGone_setup (s : State) : setup (pwmGone s) = setup s := (pwmGone_only ..).setup_eq rfl

@[simp] theorem interruptSeq_setup (s : State) : setup (interruptSeq s) = setup s := (interruptSeq_only ..).setup_eq rfl

@[simp] theorem ringSend_setup (m : RingMsg) (s : State) : setup (ringSend m s) = setup s := (ringSend_only ..).setup_eq rfl

@[simp] theorem fillReads_setup (s : State) : setup (fillReads s) = setup s := (fillReads_only ..).setup_eq rfl

@[simp] theorem endPhase_setup (g : Nat) (s : State) : setup (endPhase g s) = setup s := (endPhase_only ..).setup_eq rfl

@[simp] theorem widthHit_setup (c t : Nat) (s : State) : setup (widthHit c t s) = setup s := (widthHit_only ..).setup_eq rfl

@[simp] theorem stuckHeard_setup (c : Nat) (s : State) : setup (stuckHeard c s) = setup s := (stuckHeard_only ..).setup_eq rfl

@[simp] theorem addReq_setup (q : ParkReq) (s : State) : setup (addReq q s) = setup s := (addReq_only ..).setup_eq rfl

@[simp] theorem crossed_setup (c t : Nat) (trig : Bool) (s : State) : setup (crossed c t trig s) = setup s :=
  (crossed_only ..).setup_eq rfl

@[simp] theorem spillSync_setup (s : State) : setup (spillSync s) = setup s := (spillSync_only ..).setup_eq rfl

@[simp] theorem bufPacket_setup (org : Origin) (b : List Byte) (s : State) : setup (bufPacket org b s) = setup s :=
  (bufPacket_only ..).setup_eq rfl

@[simp] theorem flushNext_setup (s : State) : setup (flushNext s) = setup s := (flushNext_only ..).setup_eq rfl

@[simp] theorem archSuspend_setup (s : State) : setup (archSuspend s) = setup s := (archSuspend_only ..).setup_eq rfl

@[simp] theorem mountFail_setup (res : Nat) (s : State) : setup (mountFail res s) = setup s := (mountFail_only ..).setup_eq rfl

@[simp] theorem cmdError_setup (c : NvmeCmd) (timeout again : Bool) (s : State) : setup (cmdError c timeout again s) = setup s :=
  (cmdError_only ..).setup_eq rfl

@[simp] theorem setStage_setup (st : MountStage) (s : State) : setup (setStage st s) = setup s := (setStage_only ..).setup_eq rfl

@[simp] theorem archLinkLost_setup (s : State) : setup (archLinkLost s) = setup s := (archLinkLost_only ..).setup_eq rfl

@[simp] theorem noteFull_setup (s : State) : setup (noteFull s) = setup s := (noteFull_only ..).setup_eq rfl

@[simp] theorem pushTask_setup (k : Nat) (t : Task) (s : State) : setup (pushTask k t s) = setup s := (pushTask_only ..).setup_eq rfl

@[simp] theorem startMissed_setup (sid : Nat) (s : State) : setup (startMissed sid s) = setup s := (startMissed_only ..).setup_eq rfl

@[simp] theorem endTask_setup (k : Nat) (p : Task → Bool) (s : State) : setup (endTask k p s) = setup s := (endTask_only ..).setup_eq rfl

@[simp] theorem microSwap_setup (s : State) : setup (microSwap s) = setup s := (microSwap_only ..).setup_eq rfl

@[simp] theorem sendCtl_setup (typ lane : Nat) (content : List Nat) (s : State) : setup (sendCtl typ lane content s) = setup s :=
  (sendCtl_only ..).setup_eq rfl

@[simp] theorem enterDetect_setup (s0 : State) : setup (enterDetect s0) = setup s0 := (enterDetect_only ..).setup_eq rfl

@[simp] theorem countWithheld_setup (e : Nat) (s : State) : setup (countWithheld e s) = setup s := (countWithheld_only ..).setup_eq rfl

@[simp] theorem hdrWithheld_setup (s : State) : setup (hdrWithheld s) = setup s := (hdrWithheld_only ..).setup_eq rfl

@[simp] theorem pauseOver_setup (cycles : Nat) (s : State) : setup (pauseOver cycles s) = setup s := (pauseOver_only ..).setup_eq rfl

@[simp] theorem bgNext_setup (s : State) : setup (bgNext s) = setup s := (bgNext_only ..).setup_eq rfl

@[simp] theorem plainToken_setup (s : State) : setup (plainToken s) = setup s := (plainToken_only ..).setup_eq rfl

@[simp] theorem waitsEnd_setup (s : State) : setup (waitsEnd s) = setup s := (waitsEnd_only ..).setup_eq rfl

@[simp] theorem failConfirm_setup (s : State) : setup (failConfirm s) = setup s := (failConfirm_only ..).setup_eq rfl

@[simp] theorem sendEnum_setup (s : State) : setup (sendEnum s) = setup s := (sendEnum_only ..).setup_eq rfl

@[simp] theorem markDone_setup (e : SchedEvent) (s : State) : setup (markDone e s) = setup s := (markDone_only ..).setup_eq rfl

@[simp] theorem quarterOff_setup (q : Nat) (s : State) : setup (quarterOff q s) = setup s := (quarterOff_only ..).setup_eq rfl

@[simp] theorem writeRec_setup (f : BootRec → BootRec) (s : State) : setup (writeRec f s) = setup s := (writeRec_only ..).setup_eq rfl

@[simp] theorem startTimer_setup (s : State) : setup (startTimer s) = setup s := (startTimer_only ..).setup_eq rfl

@[simp] theorem loadCal_setup (warm : Bool) (s : State) : setup (loadCal warm s) = setup s := (loadCal_only ..).setup_eq rfl

@[simp] theorem updFail_setup (reason : Nat) (s : State) : setup (updFail reason s) = setup s := (updFail_only ..).setup_eq rfl

@[simp] theorem pendRecord_setup (s : State) : setup (pendRecord s) = setup s := (pendRecord_only ..).setup_eq rfl

@[simp] theorem writeSlate_setup (s : State) : setup (writeSlate s) = setup s := (writeSlate_only ..).setup_eq rfl

@[simp] theorem bootBegin_setup (s : State) : setup (bootBegin s) = setup s := (bootBegin_only ..).setup_eq rfl

@[simp] theorem takeAction_setup (a : Byte) (s : State) : setup (takeAction a s) = setup s := (takeAction_only ..).setup_eq rfl

@[simp] theorem telStart_setup (sckHigh : Bool) (s : State) : setup (telStart sckHigh s) = setup s := (telStart_only ..).setup_eq rfl

theorem takeCmd_setup {cid : Nat} {s t : State} {c : NvmeCmd} (h : takeCmd cid s = some (c, t)) : setup t = setup s :=
  (takeCmd_only h).setup_eq rfl

/-! ### Operations on SYS that leave the straps -/

@[simp] theorem tempHoldNow_setup (s : State) : setup (tempHoldNow s) = setup s := by
  simp [tempHoldNow]

@[simp] theorem tempStale_setup (s : State) : setup (tempStale s) = setup s := by
  unfold tempStale
  split <;> simp

@[simp] theorem hkStale_setup (opn short blanked : Bool) (s : State) : setup (hkStale opn short blanked s) = setup s := by
  simp [hkStale]

@[simp] theorem staleTimes_setup (n : Nat) (s : State) : setup (staleTimes n s) = setup s := by
  induction n generalizing s with
  | zero => rfl
  | succ n ih => exact (ih _).trans (hkStale_setup ..)

@[simp] theorem nextRepeat_setup (gainNew : Bool) (s : State) : setup (nextRepeat gainNew s) = setup s := by
  simp [nextRepeat]

@[simp] theorem dropFrames_setup (s0 : State) : setup (dropFrames s0) = setup s0 := by
  simp [dropFrames, (discardStacks_only ..).setup_eq rfl]

@[simp] theorem enterSafe_setup (src inst detail : Nat) (share : Bool) (s : State) :
    setup (enterSafe src inst detail share s) = setup s := by
  simp [enterSafe, (axesSafe_only ..).setup_eq rfl, (latchInhibit_only ..).setup_eq rfl]

@[simp] theorem protective_setup (src inst detail : Nat) (s : State) : setup (protective src inst detail s) = setup s := by
  simp [protective]

@[simp] theorem declareAxis_setup (x cause : Nat) (s : State) : setup (declareAxis x cause s) = setup s := by
  simp [declareAxis, (modeDropped_only ..).setup_eq rfl]

@[simp] theorem encoderError_setup (x : Nat) (counted : Bool) (s : State) : setup (encoderError x counted s) = setup s := by
  simp [encoderError]

@[simp] theorem encSample_setup (x : Nat) (v : Bool × Bool) (s : State) : setup (encSample x v s) = setup s := by
  simp [encSample]

@[simp] theorem encIndex_setup (x : Nat) (s : State) : setup (encIndex x s) = setup s := by
  simp [encIndex]

@[simp] theorem idxSample_setup (x : Nat) (v : Bool) (s : State) : setup (idxSample x v s) = setup s := by
  simp [idxSample]

@[simp] theorem drainOwn_setup (n : Nat) (s : State) : setup (drainOwn n s) = setup s := by
  induction n generalizing s with
  | zero => rfl
  | succ n ih =>
    unfold drainOwn
    repeat' split
    all_goals simp [ih]

@[simp] theorem settle_setup (s : State) : setup (settle s) = setup s := by
  simp [settle, (flushFwd_only ..).setup_eq rfl, (ringReplies_only ..).setup_eq rfl, (linkPull_only ..).setup_eq rfl]

@[simp] theorem linkStep_setup (s : State) : setup (linkStep s) = setup s := by
  unfold linkStep
  split <;> simp [(setLink_only ..).setup_eq rfl, (enterUp_only ..).setup_eq rfl, (clearAligns_only ..).setup_eq rfl]

@[simp] theorem ctrlSent_setup (s : State) : setup (ctrlSent s) = setup s := by
  unfold ctrlSent
  dsimp only
  repeat' split
  all_goals simp

@[simp] theorem lastingAction_setup (src inst detail : Nat) (s : State) : setup (lastingAction src inst detail s) = setup s := by
  simp [lastingAction, (retireEngine_only ..).setup_eq rfl, (degradeLane_only ..).setup_eq rfl]

@[simp] theorem classify_setup (src inst detail : Nat) (s : State) : setup (classify src inst detail s) = setup s := by
  simp [classify, (modFlt_only ..).setup_eq rfl, (fltCount_only ..).setup_eq rfl]

@[simp] theorem dwellTest_setup (r : Rd) (first : Bool) (x : Shot) (s : State) : setup (dwellTest r first x s) = setup s := by
  simp [dwellTest, (launch_only ..).setup_eq rfl]

@[simp] theorem stepShot_setup (r : Rd) (forced first : Bool) (x : Shot) (s : State) : setup (stepShot r forced first x s) = setup s := by
  simp [stepShot, (countSkip_only ..).setup_eq rfl]

@[simp] theorem deferFrame_setup (s : State) : setup (deferFrame s) = setup s := by
  simp [deferFrame, (modHdr_only ..).setup_eq rfl]

@[simp] theorem frameEvent_setup (ev : Nat) (all limit : Bool) (s : State) : setup (frameEvent ev all limit s) = setup s := by
  simp [frameEvent, (withholdFrom_only ..).setup_eq rfl]

@[simp] theorem shotsReached_setup (nom : Nat) (s : State) : setup (shotsReached nom s) = setup s := by
  simp [shotsReached]

@[simp] theorem tempForward_setup (e : EntW) (t : Int) (s : State) : setup (tempForward e t s) = setup s := by
  unfold tempForward
  dsimp only
  repeat' split
  all_goals simp [(tempTest_only ..).setup_eq rfl]

@[simp] theorem goodResult_setup (c : Int) (o : Bool) (e : Int × Bool) (s : State) : setup (goodResult c o e s).1 = setup s := by
  unfold goodResult
  dsimp only
  repeat' split
  all_goals simp

@[simp] theorem frameBegins_setup (s : State) : setup (frameBegins s) = setup s := by
  simp [frameBegins]

@[simp] theorem pendingState_setup (s : State) : setup (pendingState s) = setup s := by
  simp [pendingState]

@[simp] theorem crossDefers_setup (s : State) : setup (crossDefers s) = setup s := by
  unfold crossDefers
  split <;> simp

@[simp] theorem failForwards_setup (timedOut : Bool) (s : State) : setup (failForwards timedOut s) = setup s := by
  simp [failForwards]

@[simp] theorem ringDown_setup (s : State) : setup (ringDown s) = setup s := by
  simp [ringDown]

@[simp] theorem slaveLoss_setup (s : State) : setup (slaveLoss s) = setup s := by
  simp [slaveLoss]

@[simp] theorem endEnum_setup (st : Nat) (words : List Word) (s : State) : setup (endEnum st words s) = setup s := by
  unfold endEnum
  split <;> simp

@[simp] theorem ackTimeSet_setup (sender : Nat) (s : State) : setup (ackTimeSet sender s) = setup s := by
  unfold ackTimeSet
  split <;> simp

@[simp] theorem loadTime_setup (v : Nat) (s : State) : setup (loadTime v s) = setup s := by
  simp [loadTime]

@[simp] theorem schedLost_setup (ev : SchedEvent) (s : State) : setup (schedLost ev s) = setup s := by
  simp [schedLost]

@[simp] theorem ringReply_setup (src : Nat) (b : List Byte) (s : State) : setup (ringReply src b s) = setup s := by
  simp [ringReply]

@[simp] theorem ringPacketIn_setup (src : Nat) (b : List Byte) (s : State) : setup (ringPacketIn src b s) = setup s := by
  simp [ringPacketIn]

@[simp] theorem hkOff_setup (s : State) : setup (hkOff s) = setup s := by
  simp [hkOff, (hkPowerDown_only ..).setup_eq rfl]

@[simp] theorem powerDone_setup (s : State) : setup (powerDone s) = setup s := by
  unfold powerDone
  split <;> simp

@[simp] theorem referenceLost_setup (s : State) : setup (referenceLost s) = setup s := by
  simp [referenceLost]

@[simp] theorem xtalLost_setup (s : State) : setup (xtalLost s) = setup s := by
  simp [xtalLost]

@[simp] theorem supRestart_setup (choice : Bool) (s : State) : setup (supRestart choice s) = setup s := by
  simp [supRestart, (dropRuns_only ..).setup_eq rfl]

@[simp] theorem enterRecovery_setup (slot : Nat) (s : State) : setup (enterRecovery slot s) = setup s := by
  simp [enterRecovery]

@[simp] theorem leaveRecovery_setup (slot : Nat) (s : State) : setup (leaveRecovery slot s) = setup s := by
  simp [leaveRecovery]

@[simp] theorem updEnd_setup (sigOk : Bool) (q : Req) (s : State) : setup (updEnd sigOk q s) = setup s := by
  simp [updEnd]

@[simp] theorem sendGo_setup (s : State) : setup (sendGo s) = setup s := by
  simp [sendGo]

@[simp] theorem masterGoOn_setup (s : State) : setup (masterGoOn s) = setup s := by
  simp [masterGoOn]

@[simp] theorem fallBack_setup (reason : Nat) (s : State) : setup (fallBack reason s) = setup s := by
  simp [fallBack]

@[simp] theorem confirmGoOn_setup (s : State) : setup (confirmGoOn s) = setup s := by
  unfold confirmGoOn
  split <;> simp [(confirmOwn_only ..).setup_eq rfl]

@[simp] theorem recoverSelect_setup (q : Req) (s : State) : setup (recoverSelect q s) = setup s := by
  simp [recoverSelect]

@[simp] theorem rcClear_setup (id n : Nat) (s : State) : setup (rcClear id n s) = setup s := by
  simp [rcClear, (modEngCh_only ..).setup_eq rfl]

@[simp] theorem formatReply_setup (q : Req) (s : State) : setup (formatReply q s) = setup s := by
  simp [formatReply]

@[simp] theorem getParam_setup (q : Req) (s : State) : setup (getParam q s) = setup s := by
  unfold getParam
  dsimp only
  split <;> simp

@[simp] theorem readReg_setup (q : Req) (s : State) : setup (readReg q s) = setup s := by
  unfold readReg
  dsimp only
  repeat' split
  all_goals simp

@[simp] theorem regPut_setup (b : RegBlk) (k : Nat) (w : Word) (s : State) : setup (regPut b k w s) = setup s := by
  unfold regPut
  split <;> simp [(tlPut_only ..).setup_eq rfl]

@[simp] theorem regPuts_setup (b : RegBlk) (k : Nat) (l : List Word) (s : State) : setup (regPuts b k l s) = setup s := by
  induction l generalizing k s with
  | nil => rfl
  | cons w r ih => exact (ih ..).trans (regPut_setup ..)

@[simp] theorem writeReg_setup (q : Req) (s : State) : setup (writeReg q s) = setup s := by
  unfold writeReg
  dsimp only
  split <;> simp

@[simp] theorem stateWaits_setup (t : Nat) (q : Req) (s : State) : setup (stateWaits t q s) = setup s := by
  simp [stateWaits]

@[simp] theorem armedRun_setup (q : Req) (s : State) : setup (armedRun q s) = setup s := by
  simp [armedRun]

@[simp] theorem badOpcode_setup (opc : Byte) (q : Req) (s : State) : setup (badOpcode opc q s) = setup s := by
  simp [badOpcode]

@[simp] theorem endTrans_setup (bits val : Nat) (s : State) : setup (endTrans bits val s) = setup s := by
  unfold endTrans
  dsimp only
  split <;> simp [(shortTrans_only ..).setup_eq rfl, (endWrite_only ..).setup_eq rfl, (endRead_only ..).setup_eq rfl,
    (partByte_only ..).setup_eq rfl]

@[simp] theorem collide_setup (bits val : Nat) (s : State) : setup (collide bits val s) = setup s := by
  simp [collide]

/-! ### Copies of the parameter blocks (R8, R10, R325): what the writes of a copy store -/

theorem mem_of_mem_tdel {α : Type} {t : Tab α} {k : Nat} {p : Nat × α} (h : p ∈ tdel t k) : p ∈ t := by
  induction t with
  | nil => exact h
  | cons x r ih =>
    unfold tdel at h
    split at h
    · exact .tail _ (ih h)
    · obtain _ | ⟨_, h⟩ := h
      · exact .head _
      · exact .tail _ (ih h)

theorem mem_tins {α : Type} {t : Tab α} {k : Nat} {v : α} {p : Nat × α} (h : p ∈ tins t k v) : p = (k, v) ∨ p ∈ t := by
  induction t with
  | nil => exact .inl (List.mem_singleton.mp h)
  | cons x r ih =>
    unfold tins at h
    split at h
    · exact List.mem_cons.mp h
    · obtain _ | ⟨_, h⟩ := h
      · exact .inr (.head _)
      · exact (ih h).imp id (.tail _)

theorem mem_tset {α : Type} [DecidableEq α] {d : α} {t : Tab α} {k : Nat} {v : α} {p : Nat × α} (h : p ∈ tset d t k v) :
    p = (k, v) ∨ p ∈ t := by
  unfold tset at h
  split at h
  · exact .inr (mem_of_mem_tdel h)
  · exact (mem_tins h).imp id mem_of_mem_tdel

theorem tget_eq_or_mem {α : Type} (d : α) (t : Tab α) (k : Nat) : tget d t k = d ∨ (k, tget d t k) ∈ t := by
  induction t with
  | nil => exact .inl rfl
  | cons p r ih =>
    unfold tget
    split
    · next h => exact .inr (h ▸ .head _)
    · exact ih.imp id (.tail _)

/-- The listed words of block `id` have their RO and reserved bits as after reset. -/
def blockWf (id : Nat) (ws : Tab Word) : Prop := ∀ w ∈ ws, w.2 = storedWord id w.1 w.2

theorem blockWf_nil (id : Nat) : blockWf id [] := nofun

theorem copyWf_nil : copyWf [] := nofun

theorem copyWf.block {c : Tab (Tab Word)} (h : copyWf c) (id : Nat) : blockWf id (tget [] c id) := by
  obtain e | m := tget_eq_or_mem [] c id
  · rw [e]; exact blockWf_nil id
  · exact h _ m

theorem copyWf.tset {c : Tab (Tab Word)} {id : Nat} {ws : Tab Word} (h : copyWf c) (hw : blockWf id ws) : copyWf (tset [] c id ws) :=
  fun p hp => (mem_tset hp).elim (fun e => e ▸ hw) (h p)

theorem copyWf.filter {c : Tab (Tab Word)} (h : copyWf c) (keep : Nat × Tab Word → Bool) : copyWf (c.filter keep) :=
  fun p hp => h p (List.mem_filter.mp hp).1

/-- Blocks taken over one after another. -/
theorem copyWf.takeBlocks {c : Tab (Tab Word)} {g : Nat → Tab Word} (h : copyWf c) (hg : ∀ id, blockWf id (g id)) (ids : List Nat) :
    copyWf (ids.foldl (fun t id => Machine.tset [] t id (g id)) c) := by
  induction ids generalizing c with
  | nil => exact h
  | cons id r ih => exact ih (h.tset (hg id))

/-- A stored word is stored as it is. -/
theorem storedWord_storedWord (id off : Nat) (w : Word) : storedWord id off (storedWord id off w) = storedWord id off w := by
  unfold storedWord wd
  split
  · rfl
  · have hlt : w.toNat &&& rwMask id off < 2 ^ 32 := Nat.lt_of_le_of_lt Nat.and_le_left w.isLt
    rw [BitVec.toNat_ofNat, Nat.mod_eq_of_lt hlt, Nat.and_assoc, Nat.and_self]

theorem copyWf.cput {c : Tab (Tab Word)} (h : copyWf c) (id off : Nat) (w : Word) : copyWf (cput c id off w) :=
  h.tset fun p hp => (mem_tset hp).elim (fun e => e ▸ (storedWord_storedWord id off w).symm) (h.block id p)

theorem copyWf.putWords {c : Tab (Tab Word)} (h : copyWf c) (id off : Nat) (ws : List Word) : copyWf (putWords id off ws c) := by
  induction ws generalizing off c with
  | nil => exact h
  | cons w r ih => exact ih (h.cput id off w) (off + 1)

/-! ### The setup kept -/

/-- From one setup to the next: the straps stay, and copies that meet the field maps still do. -/
structure Kept (a b : Setup) : Prop where
  straps : b.1 = a.1
  copies : cfgWf a.2 → cfgWf b.2

@[simp] theorem Kept.refl (a : Setup) : Kept a a := ⟨rfl, id⟩

theorem Kept.trans {a b c : Setup} (h : Kept a b) (k : Kept b c) : Kept a c :=
  ⟨k.straps.trans h.straps, fun w => k.copies (h.copies w)⟩

@[simp] theorem kept_ite (c : Prop) [Decidable c] (a x y : Setup) : Kept a (if c then x else y) ↔ (c → Kept a x) ∧ (¬ c → Kept a y) := by
  split <;> simp [*]

theorem Kept.ite {a : Setup} {c : Prop} [Decidable c] {s t : State} (hs : Kept a (setup s)) (ht : Kept a (setup t)) :
    Kept a (setup (if c then s else t)) := by
  split
  · exact hs
  · exact ht

@[simp] theorem each_kept {α : Type} {a : Setup} {f : α → State → State} (hf : ∀ x t, Kept (setup t) (setup (f x t))) {l : List α}
    {s : State} (h : Kept a (setup s)) : Kept a (setup (each l f s)) := by
  unfold each
  induction l generalizing s with
  | nil => exact h
  | cons x r ih => exact ih (h.trans (hf x s))

/-- An operation on the parameter copies keeps the setup when it keeps their form. -/
theorem Kept.cfg {a : Setup} {y : Bool × Nat × Bool} {c d : Cfg} (h : Kept a (y, c)) (hd : cfgWf c → cfgWf d) : Kept a (y, d) :=
  ⟨h.straps, fun w => hd (h.copies w)⟩

theorem Only.kept {l : List StatePart} {s t : State} (h : Only l s t) (hl : (l.contains .sys || l.contains .cfg) = false) :
    Kept (setup s) (setup t) := h.setup_eq hl ▸ .refl _

/-! ### Operations on the parameter copies -/

@[simp] theorem purge_kept {a : Setup} {s : State} (h : Kept a (setup s)) : Kept a (setup (purge s)) :=
  h.cfg fun ⟨hactive, hslate, hpend, hfixed, hheld, hold⟩ =>
    ⟨hactive, hslate, hpend, hfixed, hheld, fun p hp => hold p (List.mem_filter.mp hp).1⟩

@[simp] theorem releaseGroup_kept {a : Setup} {sid : Nat} {s : State} (h : Kept a (setup s)) : Kept a (setup (releaseGroup sid s)) := by
  unfold releaseGroup
  dsimp only
  repeat' split
  all_goals simp [h, (putRaw_only ..).setup_eq rfl, (markLate_only ..).setup_eq rfl, (lateTasks_only ..).setup_eq rfl,
    (releaseChannel_only ..).setup_eq rfl]

@[simp] theorem coreSwap_kept {a : Setup} {r0 : Rd} {s : State} (h : Kept a (setup s)) : Kept a (setup (coreSwap r0 s)) := by
  have hs : Kept a (s.sys.straps, { s.cfg with old := tset [] s.cfg.old s.cfg.epoch s.cfg.active, epoch := s.cfg.epoch + 1 }) :=
    h.cfg fun ⟨hactive, hslate, hpend, hfixed, hheld, hold⟩ =>
      ⟨hactive, hslate, hpend, hfixed, hheld, fun p hp => (mem_tset hp).elim (fun e => e ▸ hactive) (hold p)⟩
  simpa [coreSwap, (greyBoundary_only ..).setup_eq rfl, (stkBoundary_only ..).setup_eq rfl, (dwellSwap_only ..).setup_eq rfl,
    (gridSwap_only ..).setup_eq rfl, (fillHeader_only ..).setup_eq rfl, (zoneSwap_only ..).setup_eq rfl] using hs

@[simp] theorem swapHook_kept {a : Setup} {d : ClkDom} {r0 : Rd} {s : State} (h : Kept a (setup s)) : Kept a (setup (swapHook d r0 s)) := by
  cases d <;> simp [swapHook, (hkSwap_only ..).setup_eq rfl, (archSwap_only ..).setup_eq rfl, (linkSwap_only ..).setup_eq rfl,
    (fltSwap_only ..).setup_eq rfl, (rangesSwap_only ..).setup_eq rfl, h]

@[simp] theorem crossDom_kept {a : Setup} {d : ClkDom} {s : State} (h : Kept a (setup s)) : Kept a (setup (crossDom d s)) :=
  swapHook_kept (h.cfg id)

@[simp] theorem lastAck_kept {a : Setup} {s : State} (h : Kept a (setup s)) : Kept a (setup (lastAck s)) := by
  have hs : Kept a (s.sys.straps, { s.cfg with
      active := s.cfg.fixedBlocks.foldl (fun t id => tset [] t id (tget [] s.cfg.fixed id)) s.cfg.active
      fixed := [], fixedBlocks := [], fixedId := none, token := false, waiting := [], crossed := [] }) :=
    h.cfg fun ⟨hactive, hslate, hpend, hfixed, hheld, hold⟩ =>
      ⟨hactive.takeBlocks hfixed.block _, hslate, hpend, copyWf_nil, hheld, hold⟩
  unfold lastAck
  split
  · simpa using hs
  · exact hs

@[simp] theorem fixSet_kept {a : Setup} {s : State} (h : Kept a (setup s)) : Kept a (setup (fixSet s)) := by
  unfold fixSet
  dsimp only
  split
  · next x hx =>
    exact h.cfg fun ⟨hactive, hslate, hpend, hfixed, hheld, hold⟩ => ⟨hactive, hslate, hpend.filter _, hheld x hx, nofun, hold⟩
  · next hx =>
    exact h.cfg fun ⟨hactive, hslate, hpend, hfixed, hheld, hold⟩ => ⟨hactive, hslate, copyWf_nil, hpend, hx ▸ hheld, hold⟩

@[simp] theorem sendToken_kept {a : Setup} {s : State} (h : Kept a (setup s)) : Kept a (setup (sendToken s)) :=
  each_kept (fun _ _ => crossDom_kept (.refl _)) (h.cfg id)

@[simp] theorem finishToken_kept {a : Setup} {s : State} (h : Kept a (setup s)) : Kept a (setup (finishToken s)) := by
  unfold finishToken
  split
  · exact lastAck_kept (each_kept (fun _ _ => crossDom_kept (.refl _)) h)
  · exact h

@[simp] theorem applyNow_kept {a : Setup} {s : State} (h : Kept a (setup s)) : Kept a (setup (applyNow s)) := by
  have passes : ∀ t, Kept a (setup t) → Kept a (setup (finishToken (sendToken (fixSet t)))) := fun t k =>
    finishToken_kept (sendToken_kept (fixSet_kept k))
  have h1 := finishToken_kept h
  have h2 := Kept.ite (c := setWaits (finishToken s)) (passes (plainToken (finishToken s)) h1) h1
  exact .ite (passes _ h2) h2

@[simp] theorem enterIdle_kept {a : Setup} {s : State} (h : Kept a (setup s)) : Kept a (setup (enterIdle s)) := by
  simp [enterIdle, h]

@[simp] theorem openGap_kept {a : Setup} {x : GapAt} {s : State} (h : Kept a (setup s)) : Kept a (setup (openGap x s)) := by
  simp [openGap, (frameDelays_only ..).setup_eq rfl, (runEntry_only ..).setup_eq rfl, (stopFrames_only ..).setup_eq rfl,
    (gapWork_only ..).setup_eq rfl, h]

@[simp] theorem closeGap_kept {a : Setup} {g tf frame : Nat} {forced limit : Bool} {s : State} (h : Kept a (setup s)) :
    Kept a (setup (closeGap g tf frame forced limit s)) := by
  simp [closeGap, h]

@[simp] theorem firstGap_kept {a : Setup} {g : Nat} {s : State} (h : Kept a (setup s)) : Kept a (setup (firstGap g s)) := by
  simp [firstGap, h]

@[simp] theorem timeOff_kept {a : Setup} {s : State} (h : Kept a (setup s)) : Kept a (setup (timeOff s)) := by
  simp [timeOff, (calDomainOff_only ..).setup_eq rfl, (clearFronts_only ..).setup_eq rfl, h]

@[simp] theorem domainOff_kept {a : Setup} {d : Nat} {s : State} (h : Kept a (setup s)) : Kept a (setup (domainOff d s)) := by
  simp [domainOff, (stkPowerOff_only ..).setup_eq rfl, (archDomainOff_only ..).setup_eq rfl, (linkDomainOff_only ..).setup_eq rfl,
    (bankOff_only ..).setup_eq rfl, (steerOff_only ..).setup_eq rfl, h]

@[simp] theorem switchOne_kept {a : Setup} {d : Nat} {on : Bool} {s : State} (h : Kept a (setup s)) : Kept a (setup (switchOne d on s)) := by
  simp [switchOne, (startDrain_only ..).setup_eq rfl, h]

@[simp] theorem setParam_kept {a : Setup} {q : Req} {s : State} (h : Kept a (setup s)) : Kept a (setup (setParam q s)) := by
  have hs : ∀ c, (copyWf s.cfg.slate → copyWf c) → ∀ w, Kept a (s.sys.straps, { s.cfg with slate := c, written := w }) := fun c hc w =>
    h.cfg fun ⟨hactive, hslate, hpend, hfixed, hheld, hold⟩ => ⟨hactive, hc hslate, hpend, hfixed, hheld, hold⟩
  unfold setParam
  dsimp only
  split
  · simp [h]
  · split
    · simp [h]
    · split
      · simpa using hs _ (fun k => k.tset (blockWf_nil _)) _
      · split
        · simp [h]
        · split
          · simp [h]
          · split
            · simp [h]
            · simpa using hs _ (fun k => k.putWords _ _ _) _

@[simp] theorem commitSet_kept {a : Setup} {late : Bool} {s : State} (h : Kept a (setup s)) : Kept a (setup (commitSet late s)) := by
  refine h.cfg fun ⟨hactive, hslate, hpend, hfixed, hheld, hold⟩ =>
    ⟨hactive, hslate, hpend.takeBlocks hslate.block _, hfixed, fun x hx => ?_, hold⟩
  unfold commitSet at hx
  dsimp only at hx
  split at hx
  · exact Option.some.inj hx ▸ hpend
  · exact hheld x hx

@[simp] theorem commit_kept {a : Setup} {q : Req} {s : State} (h : Kept a (setup s)) : Kept a (setup (commit q s)) := by
  unfold commit
  split
  · simp [h]
  · split <;> simp [h]

theorem cfgWf.nextCopy {s : State} (h : cfgWf s.cfg) (id : Nat) : blockWf id (nextCopy s id) := by
  obtain ⟨hactive, -, hpend, hfixed, -, -⟩ := h
  unfold Machine.nextCopy
  split
  · exact hpend.block id
  · split
    · exact hfixed.block id
    · exact hactive.block id

@[simp] theorem discard_kept {a : Setup} {q : Req} {s : State} (h : Kept a (setup s)) : Kept a (setup (discard q s)) := by
  have hs : Kept a (s.sys.straps, { s.cfg with
      slate := s.cfg.written.foldl (fun t b => tset [] t b (nextCopy s b)) s.cfg.slate, written := [] }) :=
    h.cfg fun w =>
      have ⟨hactive, hslate, hpend, hfixed, hheld, hold⟩ := w
      ⟨hactive, hslate.takeBlocks w.nextCopy _, hpend, hfixed, hheld, hold⟩
  simpa [discard] using hs

@[simp] theorem stateReq_kept {a : Setup} {q : Req} {s : State} (h : Kept a (setup s)) : Kept a (setup (stateReq q s)) := by
  have hsafe : Kept a (setup (enterIdle { s with fire := { s.fire with faultInh := false } })) := enterIdle_kept h
  unfold stateReq
  dsimp only
  repeat' split
  all_goals simp [h, hsafe, (enterArmed_only ..).setup_eq rfl]

@[simp] theorem coldReset_kept (s : State) : Kept (setup s) (setup (coldReset s)) :=
  ⟨rfl, fun _ => ⟨copyWf_nil, copyWf_nil, copyWf_nil, copyWf_nil, nofun, nofun⟩⟩

/-! ### Requests -/

theorem busyWrite_kept {opc : Nat} {write : Bool} {body : Req → State → State} (hb : ∀ q s, Kept (setup s) (setup (body q s))) (q : Req)
    (s : State) : Kept (setup s) (setup (busyWrite opc write body q s)) := by
  unfold busyWrite
  dsimp only
  split
  · exact hb q s
  · split
    · split
      · simp
      · exact hb q s
    · simp

theorem runOpcode_kept {opc : Nat} {write lenOk : Bool} {body : Req → State → State} (hb : ∀ q s, Kept (setup s) (setup (body q s)))
    (q : Req) (s : State) : Kept (setup s) (setup (runOpcode opc write lenOk body q s)) := by
  simp [runOpcode, busyWrite_kept hb]

theorem interpret_kept {opc : Nat} {write lenOk : Bool} {body : Req → State → State} (hb : ∀ q s, Kept (setup s) (setup (body q s)))
    (q : Req) (s : State) : Kept (setup s) (setup (interpret opc write lenOk body q s)) := by
  simp [interpret, runOpcode_kept hb, hb, (forward_only ..).setup_eq rfl]

/-- The interpreter keeps the setup where it keeps it in serving the request. -/
theorem serveWith_kept {opc : Byte} {run : Req → State → State} (hr : ∀ q s, Kept (setup s) (setup (run q s))) (q : Req) (s : State) :
    Kept (setup s) (setup (serveWith opc run q s)) := by
  unfold serveWith
  split
  · simp [hr]
  · next e r _ =>
    have htaken : Kept (setup s) (setup (run q { s with port := { s.port with buf := r } })) :=
      hr q { s with port := { s.port with buf := r } }
    simp [htaken]

theorem serve_kept {opc : Nat} {write lenOk : Bool} {body : Req → State → State} (hb : ∀ q s, Kept (setup s) (setup (body q s)))
    (q : Req) (s : State) : Kept (setup s) (setup (serve opc write lenOk body q s)) :=
  serveWith_kept (interpret_kept hb) q s

@[simp] theorem serveWrite_kept (q : Req) (s : State) : Kept (setup s) (setup (serveWrite q s)) :=
  serve_kept (fun q t => by simp) q s

/-! ### What a meaning may answer -/

/-- A next state of which `P` holds, or the fault of a command that is not well formed; never a refusal. -/
def Lawful (wf : Bool) (P : State → Prop) : Out → Prop
  | .next t => P t
  | .fault f => f = .noSuchObject ∧ wf = false
  | .refused _ => False

theorem Lawful.next_of_true {P : State → Prop} {o : Out} (h : Lawful true P o) : ∃ t, o = .next t ∧ P t := by
  cases o with
  | next t => exact ⟨t, rfl, h⟩
  | fault f => exact absurd h.2 nofun
  | refused r => exact h.elim

theorem Lawful.of_true {wf : Bool} {P : State → Prop} {o : Out} (h : Lawful true P o) : Lawful wf P o := by
  obtain ⟨t, rfl, ht⟩ := h.next_of_true
  exact ht

/-- The setup is kept. -/
def Steady (s t : State) : Prop := Kept (setup s) (setup t)

@[simp] theorem steady_iff (s t : State) : Steady s t ↔ Kept (setup s) (setup t) := .rfl

@[simp] theorem lawful_next (wf : Bool) (P : State → Prop) (t : State) : Lawful wf P (.next t) ↔ P t := .rfl

@[simp] theorem lawful_noSuchObject (wf : Bool) (P : State → Prop) : Lawful wf P (.fault .noSuchObject) ↔ wf = false := by
  simp [Lawful]

@[simp] theorem lawful_ite (wf : Bool) (P : State → Prop) (c : Prop) [Decidable c] (x y : Out) :
    Lawful wf P (if c then x else y) ↔ (c → Lawful wf P x) ∧ (¬ c → Lawful wf P y) := by
  split <;> simp [*]

@[simp] theorem lawful_guardObj (wf ok : Bool) (P : State → Prop) (t : State) :
    Lawful wf P (guardObj ok t) ↔ (ok = true → P t) ∧ (ok = false → wf = false) := by
  cases ok <;> simp [guardObj]

@[simp] theorem lawful_whenHk (wf : Bool) {s : State} {ok : Bool} {f : State → State} (hf : ∀ t, Kept (setup t) (setup (f t))) :
    Lawful wf (Steady s) (whenHk ok f s) := by
  simp [whenHk, hf]

@[simp] theorem lawful_ringIn (wf : Bool) {s : State} {ok : Bool} {f : State → State} (hf : ∀ t, Kept (setup t) (setup (f t))) :
    Lawful wf (Steady s) (ringIn ok f s) := by
  simp [ringIn, hf]

@[simp] theorem lawful_withAction (wf : Bool) {s : State} {a : Byte} {f : State → State} (hf : ∀ t, setup (f t) = setup t) :
    Lawful wf (Steady s) (withAction a f s) := by
  unfold withAction
  split
  · simp
  · split <;> simp [hf]

/-! ### Each command -/

/-! #### Protective faults and the inputs of the axes -/

theorem execProtectiveFault_lawful (src inst detail : Nat) (s : State) :
    Lawful (decide (inst < instancesOf src)) (Steady s) (execProtectiveFault src inst detail s) := by
  simp [execProtectiveFault, fltRange]

theorem execEncoderEdge_lawful (x : Nat) (a b : List Bool) (s : State) : Lawful (decide (x < 2)) (Steady s) (execEncoderEdge x a b s) := by
  simp [execEncoderEdge]

theorem execEncoderIndex_lawful (x : Nat × List Bool) (s : State) : Lawful (decide (x.1 < 2)) (Steady s) (execEncoderIndex x s) := by
  simp [execEncoderIndex]

theorem execSsiFrameComplete_lawful (x reading : Nat) (const : Bool) (s : State) :
    Lawful (decide (x < 2)) (Steady s) (execSsiFrameComplete x reading const s) := by
  simp [execSsiFrameComplete]

theorem execCmpReload_lawful (x : Nat) (s : State) : Lawful (decide (x < 2)) (Steady s) (execCmpReload x s) := by
  simp [execCmpReload]

theorem execDriverFault_lawful (x : Nat) (s : State) : Lawful (decide (x < 2)) (Steady s) (execDriverFault x s) := by
  simp [execDriverFault]

/-! #### Calibration -/

theorem execCalTempReadDone_lawful (g : Nat) (s : State) : Lawful (decide (g < 9)) (Steady s) (execCalTempReadDone g s) := by
  simp [execCalTempReadDone, (calAtOnce_only ..).setup_eq rfl]

theorem execCalPhaseComplete_lawful (g : Nat) (s : State) : Lawful (decide (g < 9)) (Steady s) (execCalPhaseComplete g s) := by
  simp [execCalPhaseComplete]

theorem execCalPhaseTimeout_lawful (g : Nat) (s : State) : Lawful (decide (g < 9)) (Steady s) (execCalPhaseTimeout g s) := by
  simp [execCalPhaseTimeout]

theorem execDitherFreePulse_lawful (g : Nat) (s : State) : Lawful (decide (g < 9)) (Steady s) (execDitherFreePulse g s) := by
  simp [execDitherFreePulse]

theorem execDitherGatedPulse_lawful (g : Nat) (s : State) : Lawful (decide (g < 9)) (Steady s) (execDitherGatedPulse g s) := by
  simp [execDitherGatedPulse]

theorem execGainTestStep_lawful (g step : Nat) (s : State) : Lawful (decide (g < 8)) (Steady s) (execGainTestStep g step s) := by
  refine (lawful_guardObj ..).mpr ⟨fun _ => ?_, id⟩
  dsimp only
  split
  · simp
  · split
    · simp
    · split
      · simp [(askPulses_only ..).setup_eq rfl]
      · split
        · simp
        · refine each_kept (fun c t => ?_) (.refl _)
          split <;> simp

/-! #### Segment sampler -/

theorem execIndigoRequest_lawful (t : Nat) (s : State) : Lawful true (Steady s) (execIndigoRequest t s) := by
  unfold execIndigoRequest
  split <;> simp

theorem execCalibrationParkRequest_lawful (c anchor : Nat) (sid : Option Nat) (t : Nat) (s : State) :
    Lawful (decide (c < 260)) (Steady s) (execCalibrationParkRequest c anchor sid t s) := by
  simp [execCalibrationParkRequest, (idlePark_only ..).setup_eq rfl]

theorem execSlotBoundaryDecision_lawful (b : Nat) (s : State) : Lawful true (Steady s) (execSlotBoundaryDecision b s) := by
  simp [execSlotBoundaryDecision, (decide1_only ..).setup_eq rfl]

theorem execParkInstant_lawful (b : Nat) (s : State) : Lawful true (Steady s) (execParkInstant b s) := by
  simp [execParkInstant, (parkWin_only ..).setup_eq rfl]

theorem execRingRelinkRetire_lawful (c b : Nat) (s : State) : Lawful (decide (c < 260)) (Steady s) (execRingRelinkRetire c b s) := by
  unfold execRingRelinkRetire
  dsimp only
  repeat' split
  all_goals simp [(takeSpare_only ..).setup_eq rfl, (replaced_only ..).setup_eq rfl]

theorem execSamplerFillDone_lawful (b : Nat) (s : State) : Lawful (decide (b < 9)) (Steady s) (execSamplerFillDone b s) := by
  simp [execSamplerFillDone]

theorem execConversionCycleStart_lawful (k : Nat) (s : State) : Lawful true (Steady s) (execConversionCycleStart k s) := by
  simp [execConversionCycleStart]

theorem execRampEnd_lawful (cells : List (Nat × List Latch)) (s : State) : Lawful true (Steady s) (execRampEnd cells s) := by
  unfold execRampEnd
  split <;> simp

theorem execSegmentsRejoin_lawful (s : State) : Lawful true (Steady s) (execSegmentsRejoin s) := by
  simp [execSegmentsRejoin, (returnSeg_only ..).setup_eq rfl]

/-! #### Front ends -/

theorem execZoneEventService_lawful (c : Nat) (s : State) : Lawful (decide (c < 256)) (Steady s) (execZoneEventService c s) := by
  unfold execZoneEventService
  split <;> simp [(zoneDetect_only ..).setup_eq rfl]

theorem execZoneHoldExpiry_lawful (p : Nat) (s : State) : Lawful (decide (p < 4)) (Steady s) (execZoneHoldExpiry p s) := by
  simp [execZoneHoldExpiry]

theorem execPreFireGateOpen_lawful (sid : Nat) (s : State) : Lawful true (Steady s) (execPreFireGateOpen sid s) := by
  unfold execPreFireGateOpen
  split <;> simp [(armGate_only ..).setup_eq rfl, (openGate_only ..).setup_eq rfl]

theorem execDcrLatch_lawful (sid : Nat) (cur : List (Nat × Nat)) (s : State) : Lawful true (Steady s) (execDcrLatch sid cur s) := by
  unfold execDcrLatch
  split <;> simp [(modGrey_only ..).setup_eq rfl]

theorem execAmberEnd_lawful (sid : Nat) (above : Nat × List Nat) (s : State) :
    Lawful (decide (above.1 < 8)) (Steady s) (execAmberEnd sid above s) := by
  unfold execAmberEnd
  split <;> simp [(amberOver_only ..).setup_eq rfl]

theorem execRangeEvaluate_lawful (sid : Nat) (peaks : List (Nat × Nat)) (s : State) :
    Lawful true (Steady s) (execRangeEvaluate sid peaks s) := by
  unfold execRangeEvaluate
  split <;> simp

theorem execRangeApplyIdle_lawful (c : Nat) (s : State) : Lawful (decide (c < 260)) (Steady s) (execRangeApplyIdle c s) := by
  unfold execRangeApplyIdle
  split <;> simp [(applyRange_only ..).setup_eq rfl]

theorem execSaturationAssert_lawful (c t : Nat) (s : State) : Lawful (decide (c < 260)) (Steady s) (execSaturationAssert c t s) := by
  simp [execSaturationAssert, (noteSat_only ..).setup_eq rfl]

theorem execSaturationRecovery_lawful (c : Nat) (s : State) : Lawful (decide (c < 260)) (Steady s) (execSaturationRecovery c s) := by
  simp [execSaturationRecovery]

theorem execComparatorRearm_lawful (c : Nat) (s : State) : Lawful (decide (c < 260)) (Steady s) (execComparatorRearm c s) := by
  simp [execComparatorRearm]

theorem execStuckHighTimeout_lawful (c : Nat) (s : State) : Lawful (decide (c < 256)) (Steady s) (execStuckHighTimeout c s) := by
  simp [execStuckHighTimeout]

theorem execStartTrigger_lawful (i t : Nat) (s : State) : Lawful (decide (i < 4)) (Steady s) (execStartTrigger i t s) := by
  simp [execStartTrigger, (noteStart_only ..).setup_eq rfl]

/-! #### Stacks -/

theorem execSpillComplete_lawful (s : State) : Lawful true (Steady s) (execSpillComplete s) := by
  unfold execSpillComplete
  dsimp only
  split <;> simp

theorem execSpillResume_lawful (s : State) : Lawful true (Steady s) (execSpillResume s) := by
  unfold execSpillResume
  dsimp only
  repeat' split
  all_goals simp [(setSpills_only ..).setup_eq rfl, (spillPut_only ..).setup_eq rfl]

/-! #### Archive -/

theorem execArchiveRecordStage_lawful (s : State) : Lawful true (Steady s) (execArchiveRecordStage s) := by
  unfold execArchiveRecordStage
  split <;> simp [(stageItem_only ..).setup_eq rfl, (dropRecord_only ..).setup_eq rfl]

theorem execChunkSealTimer_lawful (r : Nat) (s : State) : Lawful true (Steady s) (execChunkSealTimer r s) := by
  simp [execChunkSealTimer, (writeChunk_only ..).setup_eq rfl]

theorem execCheckpointTimer_lawful (s : State) : Lawful true (Steady s) (execCheckpointTimer s) := by
  simp [execCheckpointTimer, (archIssue_only ..).setup_eq rfl]

theorem execStationMerge_lawful (s : State) : Lawful true (Steady s) (execStationMerge s) := by
  unfold execStationMerge
  repeat' split
  all_goals simp [(writeSuper_only ..).setup_eq rfl, (readPair_only ..).setup_eq rfl, (mergeDrop_only ..).setup_eq rfl]

theorem execNvmeCompletion_lawful (cid : Nat) (ok dnr : Bool) (d : NvmeData) (s : State) :
    Lawful true (Steady s) (execNvmeCompletion cid ok dnr d s) := by
  unfold execNvmeCompletion
  split
  · simp
  · next h => simp [takeCmd_setup h, (cmdNext_only ..).setup_eq rfl]

theorem execNvmeCommandTimeout_lawful (cid : Nat) (s : State) : Lawful true (Steady s) (execNvmeCommandTimeout cid s) := by
  unfold execNvmeCommandTimeout
  split
  · simp
  · next h => simp [takeCmd_setup h]

theorem execApPerstTimer_lawful (s : State) : Lawful true (Steady s) (execApPerstTimer s) := by
  simp [execApPerstTimer]

theorem execPcieLinkUp_lawful (gen width : Nat) (cap : Bool) (s : State) : Lawful true (Steady s) (execPcieLinkUp gen width cap s) := by
  simp [execPcieLinkUp]

theorem execPcieLinkTimeout_lawful (s : State) : Lawful true (Steady s) (execPcieLinkTimeout s) := by
  simp [execPcieLinkTimeout]

theorem execControllerReady_lawful (ready : Option Nat) (s : State) : Lawful true (Steady s) (execControllerReady ready s) := by
  unfold execControllerReady
  repeat' split
  all_goals simp [(mountAt_only ..).setup_eq rfl]

theorem execPcieLinkDown_lawful (s : State) : Lawful true (Steady s) (execPcieLinkDown s) := by
  simp [execPcieLinkDown]

theorem execControllerFatalStatus_lawful (s : State) : Lawful true (Steady s) (execControllerFatalStatus s) := by
  simp [execControllerFatalStatus]

theorem execHealthReadTimer_lawful (s : State) : Lawful true (Steady s) (execHealthReadTimer s) := by
  simp [execHealthReadTimer, (archIrq_only ..).setup_eq rfl, (readHealth_only ..).setup_eq rfl]

/-! #### Echo engines -/

theorem execWindowHandoff_lawful (b : Nat) (s : State) : Lawful (decide (b < 9)) (Steady s) (execWindowHandoff b s) := by
  unfold execWindowHandoff
  repeat' split
  all_goals simp [(lateWindow_only ..).setup_eq rfl, (handReturn_only ..).setup_eq rfl, (handCal_only ..).setup_eq rfl,
    (handStart_only ..).setup_eq rfl]

theorem execStackedWindowEnter_lawful (c i : Nat) (s : State) :
    Lawful (decide (c < 256) && decide (i < 4)) (Steady s) (execStackedWindowEnter c i s) := by
  have htaken : setup (takeStacked c i s).2 = setup s := (takeStacked_only ..).setup_eq rfl
  unfold execStackedWindowEnter
  split
  · split
    · next e => simp [← htaken, e, (enterHome_only ..).setup_eq rfl]
    · next e => simp [← htaken, e]
  · simp

theorem execFinishTaskCreate_lawful (sid c : Nat) (s : State) : Lawful (decide (c < 256)) (Steady s) (execFinishTaskCreate sid c s) := by
  unfold execFinishTaskCreate
  dsimp only
  repeat' split
  all_goals simp [(shedTask_only ..).setup_eq rfl, (eraseTask_only ..).setup_eq rfl]

theorem execFinishTaskEnter_lawful (k : Nat) (s : State) : Lawful (decide (k < 64)) (Steady s) (execFinishTaskEnter k s) := by
  unfold execFinishTaskEnter
  repeat' split
  all_goals simp

theorem execEngineTakeTask_lawful (k : Nat) (s : State) : Lawful (decide (k < 64)) (Steady s) (execEngineTakeTask k s) := by
  unfold execEngineTakeTask
  repeat' split
  all_goals simp

theorem execSteal_lawful (i : Nat) (s : State) : Lawful (decide (i < 64)) (Steady s) (execSteal i s) := by
  unfold execSteal
  repeat' split
  all_goals simp

theorem execWindowTaskDone_lawful (k : Nat) (s : State) : Lawful (decide (k < 64)) (Steady s) (execWindowTaskDone k s) := by
  simp [execWindowTaskDone]

theorem execFinishTaskDone_lawful (k : Nat) (s : State) : Lawful (decide (k < 64)) (Steady s) (execFinishTaskDone k s) := by
  simp [execFinishTaskDone]

theorem execEccSingle_lawful (k : Nat) (m : EccMem) (s : State) : Lawful (decide (k < 64)) (Steady s) (execEccSingle k m s) := by
  simp [execEccSingle]

theorem execEccDouble_lawful (k : Nat) (m : EccMem) (readers : List Nat) (s : State) :
    Lawful (decide (k < 64)) (Steady s) (execEccDouble k m readers s) := by
  unfold execEccDouble
  repeat' split
  all_goals simp [(dropCur_only ..).setup_eq rfl]

theorem execEngineReloadDone_lawful (k : Nat) (s : State) : Lawful (decide (k < 64)) (Steady s) (execEngineReloadDone k s) := by
  simp [execEngineReloadDone]

/-! #### Stream link -/

theorem execLinkStateTransition_lawful (s : State) : Lawful true (Steady s) (execLinkStateTransition s) := by
  simp [execLinkStateTransition]

theorem execLinkStageTimeout_lawful (s : State) : Lawful true (Steady s) (execLinkStageTimeout s) := by
  unfold execLinkStageTimeout
  have hadv := advNow_setup (s.link.since + ns 100000000) s
  generalize advNow (s.link.since + ns 100000000) s = t at hadv ⊢
  split
  · simp
  · split
    · simp
    · dsimp only
      split <;> simp [hadv, (enterDown_only ..).setup_eq rfl]

theorem execLinkLockLoss_lawful (s : State) : Lawful true (Steady s) (execLinkLockLoss s) := by
  simp [execLinkLockLoss]

theorem execLinkDownRetry_lawful (s : State) : Lawful true (Steady s) (execLinkDownRetry s) := by
  simp [execLinkDownRetry]

theorem execLaneLockLoss_lawful (k : Nat) (s : State) : Lawful (decide (k < 8)) (Steady s) (execLaneLockLoss k s) := by
  simp [execLaneLockLoss]

theorem execBlockLockLost_lawful (k : Nat) (s : State) : Lawful (decide (k < 8)) (Steady s) (execBlockLockLost k s) := by
  simp [execBlockLockLost]

theorem execRxAdaptationComplete_lawful (s : State) : Lawful true (Steady s) (execRxAdaptationComplete s) := by
  simp [execRxAdaptationComplete]

theorem execInvalidBlock_lawful (k : Nat) (s : State) : Lawful (decide (k < 8)) (Steady s) (execInvalidBlock k s) := by
  simp [execInvalidBlock]

theorem execTrain_lawful (k : Nat) (b : TrainBlock) (s : State) : Lawful (decide (k < 8)) (Steady s) (execTrain k b s) := by
  simp [execTrain]

theorem execAlign_lawful (k : Nat) (b : AlignBlock) (s : State) : Lawful (decide (k < 8)) (Steady s) (execAlign k b s) := by
  simp [execAlign]

theorem execCredit_lawful (vs cum : Nat) (s : State) : Lawful (decide (vs < 16)) (Steady s) (execCredit vs cum s) := by
  simp [execCredit]

theorem execLaneErr_lawful (k count : Nat) (s : State) : Lawful (decide (k < 8)) (Steady s) (execLaneErr k count s) := by
  simp [execLaneErr]

theorem execCargoFrameReceive_lawful (k : Nat) (b : List Byte) (s : State) :
    Lawful (decide (k < 8)) (Steady s) (execCargoFrameReceive k b s) := by
  simp [execCargoFrameReceive]

theorem execCargoFrameSend_lawful (s : State) : Lawful true (Steady s) (execCargoFrameSend s) := by
  unfold execCargoFrameSend
  dsimp only
  repeat' split
  all_goals simp [(loadCtrl_only ..).setup_eq rfl]

theorem execCreditSend_lawful (s : State) : Lawful true (Steady s) (execCreditSend s) := by
  unfold execCreditSend
  split <;> simp

theorem execAlignMarkerSend_lawful (s : State) : Lawful true (Steady s) (execAlignMarkerSend s) := by
  unfold execAlignMarkerSend
  split <;> simp [(alignAll_only ..).setup_eq rfl]

theorem execRefreshBurst_lawful (s : State) : Lawful true (Steady s) (execRefreshBurst s) := by
  unfold execRefreshBurst
  split <;> simp

theorem execTeleFrameBuild_lawful (s : State) : Lawful true (Steady s) (execTeleFrameBuild s) := by
  simp [execTeleFrameBuild]

theorem execPartFrameFlush_lawful (v : Nat) (s : State) : Lawful (decide (v < 16)) (Steady s) (execPartFrameFlush v s) := by
  simp [execPartFrameFlush]

theorem execTxSleepEntry_lawful (k : Nat) (s : State) : Lawful (decide (k < 8)) (Steady s) (execTxSleepEntry k s) := by
  unfold execTxSleepEntry
  dsimp only
  repeat' split
  all_goals simp [(leaveUse_only ..).setup_eq rfl]

theorem execRxDeepWake_lawful (k : Nat) (s : State) : Lawful (decide (k < 8)) (Steady s) (execRxDeepWake k s) := by
  simp [execRxDeepWake]

/-! #### Fault records -/

theorem execFaultClassify_lawful (src inst detail : Nat) (s : State) :
    Lawful (decide (1 ≤ src) && decide (src ≤ 9) && decide (inst < instancesOf src)) (Steady s) (execFaultClassify src inst detail s) := by
  unfold execFaultClassify
  split
  · next h =>
    unfold fltRange at h
    rw [lawful_noSuchObject]
    simp only [Bool.and_eq_false_iff, decide_eq_false_iff_not]
    omega
  · split
    · simp
    · split <;> simp

theorem execLogBudgetRefill_lawful (s : State) : Lawful true (Steady s) (execLogBudgetRefill s) := by
  simp [execLogBudgetRefill]

/-! #### Reordering -/

theorem execGroupRelease_lawful (s : State) : Lawful true (Steady s) (execGroupRelease s) := by
  unfold execGroupRelease
  split <;> simp

theorem execReleaseHorizon_lawful (s : State) : Lawful true (Steady s) (execReleaseHorizon s) := by
  unfold execReleaseHorizon
  split <;> simp

/-! #### Firing -/

theorem execCodeStep_lawful (s : State) : Lawful true (Steady s) (execCodeStep s) := by
  unfold execCodeStep
  repeat' split
  all_goals simp [(countNominal_only ..).setup_eq rfl]

theorem execFireEdge_lawful (sid j : Nat) (s : State) : Lawful true (Steady s) (execFireEdge sid j s) := by
  unfold execFireEdge
  split <;> simp [(firstEdge_only ..).setup_eq rfl]

theorem execFirePulseEnd_lawful (e : Nat) (s : State) : Lawful (decide (e < 16)) (Steady s) (execFirePulseEnd e s) := by
  simp [execFirePulseEnd]

theorem execStartAcceptClose_lawful (sid j : Nat) (s : State) : Lawful true (Steady s) (execStartAcceptClose sid j s) := by
  unfold execStartAcceptClose
  split <;> simp

theorem execListenWindowEnd_lawful (sid : Nat) (s : State) : Lawful true (Steady s) (execListenWindowEnd sid s) := by
  unfold execListenWindowEnd
  split <;> simp [(countSat_only ..).setup_eq rfl]

theorem execTrigger_lawful (c t : Nat) (s : State) : Lawful (decide (c < 256)) (Steady s) (execTrigger c t s) := by
  simp [execTrigger, (trigLimitHits_only ..).setup_eq rfl, (noteTrig_only ..).setup_eq rfl, (zoneMatch_only ..).setup_eq rfl,
    (neighbourGates_only ..).setup_eq rfl]

theorem execVelocityEstimate_lawful (s : State) : Lawful true (Steady s) (execVelocityEstimate s) := by
  simp [execVelocityEstimate, (cancelEdges_only ..).setup_eq rfl]

theorem execDwellSubintervalRoll_lawful (s : State) : Lawful true (Steady s) (execDwellSubintervalRoll s) := by
  simp [execDwellSubintervalRoll]

/-! #### Housekeeping converter -/

theorem execHkPassTrigger_lawful (s : State) : Lawful true (Steady s) (execHkPassTrigger s) := by
  simp [execHkPassTrigger]

theorem execHkTimerTick_lawful (s : State) : Lawful true (Steady s) (execHkTimerTick s) := by
  simp [execHkTimerTick]

theorem execHkPwmEdge_lawful (x : Nat) (falling : Bool) (s : State) : Lawful (decide (x < 2)) (Steady s) (execHkPwmEdge x falling s) := by
  unfold execHkPwmEdge
  split
  · next h => exact (lawful_noSuchObject ..).mpr (decide_eq_false (Nat.not_lt.mpr h))
  · simp [(beginConv_only ..).setup_eq rfl]

theorem execHkEntrySwitch_lawful (v0 : Int) (s : State) : Lawful true (Steady s) (execHkEntrySwitch v0 s) := by
  simp [execHkEntrySwitch, (applySources_only ..).setup_eq rfl]

theorem execBurnoutPulseEnd_lawful (v1 : Int) (s : State) : Lawful true (Steady s) (execBurnoutPulseEnd v1 s) := by
  simp [execBurnoutPulseEnd]

theorem execHkEntryDelayEnd_lawful (s : State) : Lawful true (Steady s) (execHkEntryDelayEnd s) := by
  simp [execHkEntryDelayEnd, (refOrPwm_only ..).setup_eq rfl]

theorem execHkRefWaitTimeout_lawful (s : State) : Lawful true (Steady s) (execHkRefWaitTimeout s) := by
  simp [execHkRefWaitTimeout]

theorem execRefrdyChange_lawful (r : Nat) (set : Bool) (s : State) : Lawful (decide (r < 3)) (Steady s) (execRefrdyChange r set s) := by
  simp [execRefrdyChange]

theorem execHkConversionEnd_lawful (raw : Int) (ovr : Bool) (s : State) : Lawful true (Steady s) (execHkConversionEnd raw ovr s) := by
  refine lawful_whenHk true fun t => ?_
  dsimp only
  split <;> simp

theorem execHkbufWrite_lawful (s : State) : Lawful true (Steady s) (execHkbufWrite s) := by
  unfold execHkbufWrite
  split <;> simp

theorem execHkPauseStart_lawful (s : State) : Lawful true (Steady s) (execHkPauseStart s) := by
  simp [execHkPauseStart]

theorem execHkPauseEnd_lawful (cycles : Nat) (s : State) : Lawful true (Steady s) (execHkPauseEnd cycles s) := by
  simp [execHkPauseEnd]

theorem execHkBlankEdge_lawful (level : Bool) (cycles : Nat) (s : State) : Lawful true (Steady s) (execHkBlankEdge level cycles s) := by
  simp [execHkBlankEdge]

theorem execHkBlankMaxAbort_lawful (s : State) : Lawful true (Steady s) (execHkBlankMaxAbort s) := by
  simp [execHkBlankMaxAbort]

theorem execHkInjectHead_lawful (s : State) : Lawful true (Steady s) (execHkInjectHead s) := by
  refine lawful_whenHk true fun t => ?_
  dsimp only
  split <;> simp

theorem execSelfcalStart_lawful (s : State) : Lawful true (Steady s) (execSelfcalStart s) := by
  simp [execSelfcalStart, (sourcesOff_only ..).setup_eq rfl]

theorem execSelfcalEnd_lawful (factors : List (Int × Nat)) (temp : Int) (s : State) :
    Lawful true (Steady s) (execSelfcalEnd factors temp s) := by
  simp [execSelfcalEnd, (afterInject_only ..).setup_eq rfl]

theorem execHkBgTempMeasure_lawful (temp : Int) (s : State) : Lawful true (Steady s) (execHkBgTempMeasure temp s) := by
  simp [execHkBgTempMeasure]

theorem execHkBgCalSlotEnd_lawful (val : Int) (s : State) : Lawful true (Steady s) (execHkBgCalSlotEnd val s) := by
  simp [execHkBgCalSlotEnd]

theorem execExcMonitorDeclare_lawful (src : Nat) (short : Bool) (s : State) :
    Lawful (decide (src < 4)) (Steady s) (execExcMonitorDeclare src short s) := by
  simp [execExcMonitorDeclare, (flagLast_only ..).setup_eq rfl]

/-! #### Frame boundaries -/

theorem execIndexCrossing_lawful (t : Nat) (s : State) : Lawful true (Steady s) (execIndexCrossing t s) := by
  simp [execIndexCrossing]

theorem execFsyncEdge_lawful (rising : Bool) (t : Nat) (s : State) : Lawful true (Steady s) (execFsyncEdge rising t s) := by
  unfold execFsyncEdge
  dsimp only
  repeat' split
  all_goals simp

theorem execFrameLimitExpiry_lawful (t : Nat) (s : State) : Lawful true (Steady s) (execFrameLimitExpiry t s) := by
  simp [execFrameLimitExpiry]

theorem execBoundaryGapOpen_lawful (t : Nat) (s : State) : Lawful true (Steady s) (execBoundaryGapOpen t s) := by
  unfold execBoundaryGapOpen
  repeat' split
  all_goals simp

theorem execTokenArrival_lawful (d : ClkDom) (s : State) : Lawful true (Steady s) (execTokenArrival d s) := by
  simp [execTokenArrival]

theorem execTokenAck_lawful (s : State) : Lawful true (Steady s) (execTokenAck s) := by
  simp [execTokenAck]

theorem execGapEnd_lawful (t : Nat) (s : State) : Lawful true (Steady s) (execGapEnd t s) := by
  simp [execGapEnd]

theorem execSafePendingApply_lawful (s : State) : Lawful true (Steady s) (execSafePendingApply s) := by
  simp [execSafePendingApply]

theorem execPositionCrossing_lawful (t : Nat) (s : State) : Lawful true (Steady s) (execPositionCrossing t s) := by
  simp [execPositionCrossing, (crossTimes_only ..).setup_eq rfl]

/-! #### Cascade -/

theorem execRingLossSlave_lawful (s : State) : Lawful true (Steady s) (execRingLossSlave s) := by
  simp [execRingLossSlave]

theorem execRingReceiverLockLoss_lawful (s : State) : Lawful true (Steady s) (execRingReceiverLockLoss s) := by
  simp [execRingReceiverLockLoss]

theorem execHeartbeatTimeout_lawful (s : State) : Lawful true (Steady s) (execHeartbeatTimeout s) := by
  simp [execHeartbeatTimeout]

theorem execBreakAtTimeout_lawful (s : State) : Lawful true (Steady s) (execBreakAtTimeout s) := by
  simp [execBreakAtTimeout]

theorem execLoss_lawful (sender : Nat) (crcOk : Bool) (s : State) : Lawful true (Steady s) (execLoss sender crcOk s) := by
  simp [execLoss]

theorem execFault_lawful (sender src : Nat) (crcOk : Bool) (s : State) : Lawful true (Steady s) (execFault sender src crcOk s) := by
  simp [execFault]

theorem execForwardTimeout_lawful (s : State) : Lawful true (Steady s) (execForwardTimeout s) := by
  simp [execForwardTimeout]

theorem execCascEnum_lawful (q : Req) (s : State) : Lawful true (Steady s) (execCascEnum q s) :=
  serve_kept (fun q t => by simp) q s

theorem execEnum_lawful (entries : List EnumEntry) (crcOk : Bool) (s : State) : Lawful true (Steady s) (execEnum entries crcOk s) := by
  simp [execEnum]

theorem execEnumTimeout_lawful (s : State) : Lawful true (Steady s) (execEnumTimeout s) := by
  unfold execEnumTimeout
  split <;> simp

theorem execHeartbeatSend_lawful (s : State) : Lawful true (Steady s) (execHeartbeatSend s) := by
  simp [execHeartbeatSend]

theorem execHeartbeat_lawful (frame ringSeq : Nat) (crcOk : Bool) (s : State) :
    Lawful true (Steady s) (execHeartbeat frame ringSeq crcOk s) := by
  simp [execHeartbeat]

theorem execTimeSet_lawful (q : Req) (s : State) : Lawful true (Steady s) (execTimeSet q s) :=
  serve_kept (fun q t => by simp) q s

theorem execTimeSetAckTimeout_lawful (s : State) : Lawful true (Steady s) (execTimeSetAckTimeout s) := by
  unfold execTimeSetAckTimeout
  split <;> simp

theorem execTimeSetLoad_lawful (t : Nat) (s : State) : Lawful true (Steady s) (execTimeSetLoad t s) := by
  unfold execTimeSetLoad
  split <;> simp

theorem execSched_lawful (ev : SchedEvent) (crcOk : Bool) (t : Nat) (s : State) : Lawful true (Steady s) (execSched ev crcOk t s) := by
  simp [execSched]

theorem execAnchor_lawful (t : Nat) (s : State) : Lawful true (Steady s) (execAnchor t s) := by
  unfold execAnchor
  split <;> simp

theorem execCross_lawful (s : State) : Lawful true (Steady s) (execCross s) := by
  unfold execCross
  split <;> simp [(crossOne_only ..).setup_eq rfl]

theorem execFrameEnd_lawful (t : Nat) (s : State) : Lawful true (Steady s) (execFrameEnd t s) := by
  unfold execFrameEnd
  dsimp only
  repeat' split
  all_goals simp

theorem execPkt_lawful (src dst : Nat) (bytes : List Byte) (last crcOk : Bool) (s : State) :
    Lawful true (Steady s) (execPkt src dst bytes last crcOk s) := by
  simp [execPkt]

/-! #### Power and clocks -/

theorem execPower_lawful (q : Req) (s : State) : Lawful true (Steady s) (execPower q s) :=
  serve_kept (fun q t => by simp) q s

theorem execDomainSwitchStep_lawful (s : State) : Lawful true (Steady s) (execDomainSwitchStep s) := by
  unfold execDomainSwitchStep
  split <;> simp [(nextSwitch_only ..).setup_eq rfl]

theorem execDomainUp_lawful (d : Nat) (s : State) : Lawful (decide (d < 20)) (Steady s) (execDomainUp d s) := by
  simp [execDomainUp, (domainOn_only ..).setup_eq rfl]

theorem execQuarterDrainEnd_lawful (qt : Nat) (s : State) : Lawful (decide (qt < 4)) (Steady s) (execQuarterDrainEnd qt s) := by
  simp [execQuarterDrainEnd]

theorem execReferenceLost_lawful (s : State) : Lawful true (Steady s) (execReferenceLost s) := by
  simp [execReferenceLost]

theorem execPllLockTimeout_lawful (s : State) : Lawful true (Steady s) (execPllLockTimeout s) := by
  unfold execPllLockTimeout
  repeat' split
  all_goals simp

theorem execClockLost_lawful (c : Clk) (s : State) : Lawful true (Steady s) (execClockLost c s) := by
  unfold execClockLost
  split <;> simp [(linkClockLost_only ..).setup_eq rfl]

theorem execClockRestored_lawful (c : Clk) (s : State) : Lawful true (Steady s) (execClockRestored c s) := by
  unfold execClockRestored
  split <;> simp

theorem execRailFlagUpdate_lawful (vsl vap vhk : Bool) (s : State) : Lawful true (Steady s) (execRailFlagUpdate vsl vap vhk s) := by
  simp [execRailFlagUpdate]

/-! #### Firmware update -/

theorem execUpdEndComplete_lawful (s : State) : Lawful true (Steady s) (execUpdEndComplete s) := by
  simp [execUpdEndComplete]

theorem execUpdEraseStep_lawful (s : State) : Lawful true (Steady s) (execUpdEraseStep s) := by
  simp [execUpdEraseStep]

theorem execActivationCheckDone_lawful (sigOk tagOk : Bool) (s : State) :
    Lawful true (Steady s) (execActivationCheckDone sigOk tagOk s) := by
  simp [execActivationCheckDone]

theorem execCascadeCheckTimeout_lawful (s : State) : Lawful true (Steady s) (execCascadeCheckTimeout s) := by
  simp [execCascadeCheckTimeout]

theorem execSupervisorRestart_lawful (s : State) : Lawful true (Steady s) (execSupervisorRestart s) := by
  simp [execSupervisorRestart]

theorem execGo_lawful (s : State) : Lawful true (Steady s) (execGo s) := by
  simp [execGo]

theorem execGoTimeout_lawful (s : State) : Lawful true (Steady s) (execGoTimeout s) := by
  simp [execGoTimeout]

theorem execConfirmTimerExpiry_lawful (s : State) : Lawful true (Steady s) (execConfirmTimerExpiry s) := by
  simp [execConfirmTimerExpiry]

theorem execFallback_lawful (s : State) : Lawful true (Steady s) (execFallback s) := by
  simp [execFallback]

theorem execAck_lawful (sender : Nat) (kind : AckKind) (crcOk : Bool) (s : State) :
    Lawful true (Steady s) (execAck sender kind crcOk s) := by
  unfold execAck
  split <;> simp

theorem execUpdBegin_lawful (q : Req) (s : State) : Lawful true (Steady s) (execUpdBegin q s) :=
  serve_kept (fun q t => (updBegin_only q t).kept rfl) q s

theorem execUpdData_lawful (q : Req) (s : State) : Lawful true (Steady s) (execUpdData q s) :=
  serve_kept (fun q t => (updData_only q t).kept rfl) q s

theorem execUpdEnd_lawful (q : Req) (sigOk : Bool) (s : State) : Lawful true (Steady s) (execUpdEnd q sigOk s) :=
  serve_kept (fun q t => by simp) q s

theorem execUpdActivate_lawful (q : Req) (s : State) : Lawful true (Steady s) (execUpdActivate q s) :=
  serve_kept (fun q t => (updActivate_only q t).kept rfl) q s

theorem execUpdConfirm_lawful (q : Req) (s : State) : Lawful true (Steady s) (execUpdConfirm q s) :=
  serve_kept (fun q t => (updConfirm_only q t).kept rfl) q s

theorem execUpdStatus_lawful (q : Req) (s : State) : Lawful true (Steady s) (execUpdStatus q s) :=
  serve_kept (fun q t => by simp) q s

theorem execRecoverSelect_lawful (q : Req) (s : State) : Lawful true (Steady s) (execRecoverSelect q s) :=
  serve_kept (fun q t => by simp) q s

/-! #### Flash -/

theorem execPageBufferFlush_lawful (s : State) : Lawful true (Steady s) (execPageBufferFlush s) := by
  unfold execPageBufferFlush
  split <;> simp

theorem execFlashStatusPoll_lawful (done good : Bool) (s : State) : Lawful true (Steady s) (execFlashStatusPoll done good s) := by
  simp [execFlashStatusPoll]

theorem execFlashOpTimeout_lawful (s : State) : Lawful true (Steady s) (execFlashOpTimeout s) := by
  unfold execFlashOpTimeout
  split <;> simp

theorem execFlashEraseRegister_lawful (off : Nat) (size64 : Bool) (s : State) :
    Lawful (decide (off < 2 ^ 26) && decide (off % 4096 = 0)) (Steady s) (execFlashEraseRegister off size64 s) := by
  simp [execFlashEraseRegister, (startErase_only ..).setup_eq rfl]

theorem execWindowReadSuspend_lawful (off : Nat) (s : State) : Lawful (decide (off < 2 ^ 26)) (Steady s) (execWindowReadSuspend off s) := by
  unfold execWindowReadSuspend
  split <;> simp

theorem execBootHeaderErase_lawful (copy : Nat) (s : State) : Lawful (decide (copy < 2)) (Steady s) (execBootHeaderErase copy s) := by
  simp [execBootHeaderErase, (eraseCopy_only ..).setup_eq rfl]

theorem execSlateMarkReady_lawful (ver : Nat) (s : State) : Lawful true (Steady s) (execSlateMarkReady ver s) := by
  simp [execSlateMarkReady]

theorem execCalStoreInterval_lawful (s : State) : Lawful true (Steady s) (execCalStoreInterval s) := by
  simp [execCalStoreInterval, (storeBegin_only ..).setup_eq rfl]

theorem execCalStart_lawful (q : Req) (s : State) : Lawful true (Steady s) (execCalStart q s) :=
  serve_kept (fun q t => (calStart_only q t).kept rfl) q s

theorem execCalStoreLoad_lawful (s : State) : Lawful true (Steady s) (execCalStoreLoad s) := by
  simp [execCalStoreLoad, (refreshAll_only ..).setup_eq rfl]

/-! #### Reset and start -/

theorem execResetnAssert_lawful (s : State) : Lawful true (Steady s) (execResetnAssert s) := coldReset_kept s

theorem execPowerOnReset_lawful (s : State) : Lawful true (Steady s) (execPowerOnReset s) := coldReset_kept s

theorem execPowerOnResetRelease_lawful (s : State) : Lawful true (Steady s) (execPowerOnResetRelease s) := by
  simp [execPowerOnResetRelease]

theorem execBootVerifyComplete_lawful (sigA tagA sigB tagB : Bool) (s : State) :
    Lawful true (Steady s) (execBootVerifyComplete sigA tagA sigB tagB s) := by
  simp [execBootVerifyComplete, (chooseSlot_only ..).setup_eq rfl, (startImage_only ..).setup_eq rfl, (readMode_only ..).setup_eq rfl]

theorem execWarmStart_lawful (s : State) : Lawful true (Steady s) (execWarmStart s) := by
  unfold execWarmStart
  dsimp only
  repeat' split
  all_goals simp [(resumeCal_only ..).setup_eq rfl]

theorem execLockstepMismatch_lawful (s : State) : Lawful true (Steady s) (execLockstepMismatch s) := by
  simp [execLockstepMismatch]

/-! #### Requests -/

theorem execNop_lawful (q : Req) (s : State) : Lawful true (Steady s) (execNop q s) :=
  serve_kept (fun q t => by simp) q s

theorem execIdent_lawful (q : Req) (s : State) : Lawful true (Steady s) (execIdent q s) :=
  serve_kept (fun q t => by simp) q s

theorem execGetStatus_lawful (q : Req) (s : State) : Lawful true (Steady s) (execGetStatus q s) :=
  serve_kept (fun q t => by simp) q s

theorem execSetParam_lawful (q : Req) (s : State) : Lawful true (Steady s) (execSetParam q s) :=
  serve_kept (fun _ _ => setParam_kept (.refl _)) q s

theorem execGetParam_lawful (q : Req) (s : State) : Lawful true (Steady s) (execGetParam q s) :=
  serve_kept (fun q t => by simp) q s

theorem execCommit_lawful (q : Req) (s : State) : Lawful true (Steady s) (execCommit q s) :=
  serve_kept (fun _ _ => commit_kept (.refl _)) q s

theorem execDiscard_lawful (q : Req) (s : State) : Lawful true (Steady s) (execDiscard q s) :=
  serve_kept (fun _ _ => discard_kept (.refl _)) q s

theorem execReadReg_lawful (q : Req) (s : State) : Lawful true (Steady s) (execReadReg q s) :=
  serve_kept (fun q t => by simp) q s

theorem execWriteReg_lawful (q : Req) (s : State) : Lawful true (Steady s) (execWriteReg q s) := by
  simp [execWriteReg]

theorem execIrqPendClear_lawful (q : Req) (s : State) : Lawful true (Steady s) (execIrqPendClear q s) := by
  simp [execIrqPendClear]

theorem execHkbufRdWrite_lawful (q : Req) (s : State) : Lawful true (Steady s) (execHkbufRdWrite q s) := by
  simp [execHkbufRdWrite]

theorem execTelemetryListWrite_lawful (q : Req) (s : State) : Lawful true (Steady s) (execTelemetryListWrite q s) := by
  simp [execTelemetryListWrite]

theorem execState_lawful (q : Req) (s : State) : Lawful true (Steady s) (execState q s) :=
  serve_kept (fun _ _ => stateReq_kept (.refl _)) q s

theorem execLaneState_lawful (q : Req) (s : State) : Lawful true (Steady s) (execLaneState q s) :=
  serve_kept (fun q t => by simp [(archLaneState_only ..).setup_eq rfl, (linkLaneState_only ..).setup_eq rfl]) q s

theorem execCalStatus_lawful (q : Req) (s : State) : Lawful true (Steady s) (execCalStatus q s) :=
  serve_kept (fun q t => by simp) q s

theorem execHkSelfcal_lawful (q : Req) (s : State) : Lawful true (Steady s) (execHkSelfcal q s) :=
  serve_kept (fun q t => by simp) q s

theorem execHkInject_lawful (q : Req) (s : State) : Lawful true (Steady s) (execHkInject q s) :=
  serve_kept (fun q t => by simp [(hkInject_only ..).setup_eq rfl]) q s

theorem execSteerMode_lawful (q : Req) (s : State) : Lawful true (Steady s) (execSteerMode q s) :=
  serve_kept (fun q t => (steerMode_only q t).kept rfl) q s

theorem execSteerMove_lawful (q : Req) (s : State) : Lawful true (Steady s) (execSteerMove q s) :=
  serve_kept (fun q t => (steerMove_only q t).kept rfl) q s

theorem execLoopSample_lawful (x : Nat) (s : State) : Lawful (decide (x < 2)) (Steady s) (execLoopSample x s) := by
  simp [execLoopSample, (modeTaken_only ..).setup_eq rfl]

theorem execArchMount_lawful (q : Req) (s : State) : Lawful true (Steady s) (execArchMount q s) :=
  serve_kept (fun q t => (archMount_only q t).kept rfl) q s

theorem execArchStart_lawful (q : Req) (s : State) : Lawful true (Steady s) (execArchStart q s) :=
  serve_kept (fun q t => (archStart_only q t).kept rfl) q s

theorem execArchStop_lawful (q : Req) (s : State) : Lawful true (Steady s) (execArchStop q s) :=
  serve_kept (fun q t => (archStop_only q t).kept rfl) q s

theorem execArchStatus_lawful (q : Req) (s : State) : Lawful true (Steady s) (execArchStatus q s) :=
  serve_kept (fun q t => by simp) q s

theorem execFaultRead_lawful (q : Req) (s : State) : Lawful true (Steady s) (execFaultRead q s) :=
  serve_kept (fun q t => (faultRead_only q t).kept rfl) q s

theorem execFaultClear_lawful (q : Req) (s : State) : Lawful true (Steady s) (execFaultClear q s) :=
  serve_kept (fun q t => (faultClear_only q t).kept rfl) q s

theorem execUnknownOpcode_lawful (opc : Byte) (q : Req) (s : State) : Lawful true (Steady s) (execUnknownOpcode opc q s) :=
  .ite (.refl _) (serveWith_kept (fun q t => by simp) q s)

/-! #### Command and telemetry ports -/

theorem execCpSelectFall_lawful (sckHigh : Bool) (s : State) : Lawful true (Steady s) (execCpSelectFall sckHigh s) := by
  simp [execCpSelectFall]

theorem execStatus_lawful (edges : Nat) (s : State) : Lawful true (Steady s) (execStatus edges s) := by
  simp [execStatus, (extraEdges_only ..).setup_eq rfl]

theorem execUnknownAction_lawful (a : Byte) (s : State) : Lawful true (Steady s) (execUnknownAction a s) := by
  unfold execUnknownAction
  split <;> simp

theorem execWrite_lawful (bytes : List (Byte × Nat)) (s : State) : Lawful true (Steady s) (execWrite bytes s) := by
  simp [execWrite, (shiftOut_only ..).setup_eq rfl, (writeByte_only ..).setup_eq rfl, (supTakes_only ..).setup_eq rfl]

theorem execRead_lawful (loads : List Nat) (s : State) : Lawful true (Steady s) (execRead loads s) := by
  simp [execRead, (readByte_only ..).setup_eq rfl, (supLoads_only ..).setup_eq rfl]

theorem execCpSelectRise_lawful (bits val : Nat) (s : State) : Lawful true (Steady s) (execCpSelectRise bits val s) := by
  simp [execCpSelectRise]

theorem execCmdStallTimeout_lawful (bits val : Nat) (s : State) : Lawful true (Steady s) (execCmdStallTimeout bits val s) := by
  unfold execCmdStallTimeout
  split <;> simp [(modTrans_only ..).setup_eq rfl]

theorem execTelSelectFall_lawful (sckHigh : Bool) (s : State) : Lawful true (Steady s) (execTelSelectFall sckHigh s) := by
  simp [execTelSelectFall]

theorem execSelectCollision_lawful (cmdLow : Option Bool) (bits val : Nat) (s : State) :
    Lawful true (Steady s) (execSelectCollision cmdLow bits val s) := by
  unfold execSelectCollision
  repeat' split
  all_goals simp

theorem execTelemetryWord_lawful (waited : Bool) (s : State) : Lawful true (Steady s) (execTelemetryWord waited s) := by
  simp [execTelemetryWord]

theorem execTelSelectRise_lawful (bits : Nat) (notReady : Bool) (s : State) :
    Lawful true (Steady s) (execTelSelectRise bits notReady s) := by
  simp [execTelSelectRise]

theorem execTelemetryStateUpdate_lawful (s : State) : Lawful true (Steady s) (execTelemetryStateUpdate s) :=
  .ite (putItem_setup 7 (stateItem s) s ▸ .refl _) (.refl _)

/-! ### All commands -/

/-- The straps after a command that goes on (R12). -/
def strapsAfter (c : Instr) (s : State) : Bool × Nat × Bool :=
  match c with
  | .resetnRelease role id boot _ => if s.sys.resetLow = true then (role, id, boot) else s.sys.straps
  | _ => s.sys.straps

theorem strapsAfter_of_ne {c : Instr} {s : State} (hc : ∀ role k boot tbl, c ≠ .resetnRelease role k boot tbl) :
    strapsAfter c s = s.sys.straps := by
  unfold strapsAfter
  split
  · exact absurd rfl (hc _ _ _ _)
  · rfl

/-- The release of RESETn samples the straps, and only while RESETn is low. -/
theorem execResetnRelease_lawful (role : Bool) (k : Nat) (boot : Bool) (tbl : FlashTable) (s : State) :
    Lawful (decide (k < 8)) (fun t => Kept (strapsAfter (.resetnRelease role k boot tbl) s, s.cfg) (setup t))
      (execResetnRelease role k boot tbl s) := by
  cases h : s.sys.resetLow with
  | false => simp [execResetnRelease, strapsAfter, h]
  | true => simp [execResetnRelease, strapsAfter, h, Sys.straps, (bootBegin_only ..).setup_eq rfl]

/-- The law of every command: it completes, or it names an object the device does not have; a completed command leaves the straps
that `strapsAfter` names, and copies that meet the field maps still do. -/
theorem exec_lawful (c : Instr) (s : State) : Lawful c.wf (fun t => Kept (strapsAfter c s, s.cfg) (setup t)) (exec c s) := by
  cases c with
  | resetnAssert => exact (execResetnAssert_lawful s).of_true
  | powerOnReset => exact (execPowerOnReset_lawful s).of_true
  | resetnRelease role k boot tbl => exact execResetnRelease_lawful role k boot tbl s
  | bootVerifyComplete sigA tagA sigB tagB => exact (execBootVerifyComplete_lawful sigA tagA sigB tagB s).of_true
  | calStoreLoad => exact (execCalStoreLoad_lawful s).of_true
  | nop q => exact (execNop_lawful q s).of_true
  | ident q => exact (execIdent_lawful q s).of_true
  | getStatus q => exact (execGetStatus_lawful q s).of_true
  | setParam q => exact (execSetParam_lawful q s).of_true
  | getParam q => exact (execGetParam_lawful q s).of_true
  | commit q => exact (execCommit_lawful q s).of_true
  | discard q => exact (execDiscard_lawful q s).of_true
  | readReg q => exact (execReadReg_lawful q s).of_true
  | writeReg q => exact (execWriteReg_lawful q s).of_true
  | irqPendClear q => exact (execIrqPendClear_lawful q s).of_true
  | hkbufRdWrite q => exact (execHkbufRdWrite_lawful q s).of_true
  | telemetryListWrite q => exact (execTelemetryListWrite_lawful q s).of_true
  | state q => exact (execState_lawful q s).of_true
  | power q => exact (execPower_lawful q s).of_true
  | laneState q => exact (execLaneState_lawful q s).of_true
  | timeSet q => exact (execTimeSet_lawful q s).of_true
  | calStart q => exact (execCalStart_lawful q s).of_true
  | calStatus q => exact (execCalStatus_lawful q s).of_true
  | hkSelfcal q => exact (execHkSelfcal_lawful q s).of_true
  | hkInject q => exact (execHkInject_lawful q s).of_true
  | steerMode q => exact (execSteerMode_lawful q s).of_true
  | steerMove q => exact (execSteerMove_lawful q s).of_true
  | archMount q => exact (execArchMount_lawful q s).of_true
  | archStart q => exact (execArchStart_lawful q s).of_true
  | archStop q => exact (execArchStop_lawful q s).of_true
  | archStatus q => exact (execArchStatus_lawful q s).of_true
  | updBegin q => exact (execUpdBegin_lawful q s).of_true
  | updData q => exact (execUpdData_lawful q s).of_true
  | updEnd q sigOk => exact (execUpdEnd_lawful q sigOk s).of_true
  | updActivate q => exact (execUpdActivate_lawful q s).of_true
  | updConfirm q => exact (execUpdConfirm_lawful q s).of_true
  | updStatus q => exact (execUpdStatus_lawful q s).of_true
  | recoverSelect q => exact (execRecoverSelect_lawful q s).of_true
  | faultRead q => exact (execFaultRead_lawful q s).of_true
  | faultClear q => exact (execFaultClear_lawful q s).of_true
  | cascEnum q => exact (execCascEnum_lawful q s).of_true
  | cpSelectFall sckHigh => exact (execCpSelectFall_lawful sckHigh s).of_true
  | status edges => exact (execStatus_lawful edges s).of_true
  | write bytes => exact (execWrite_lawful bytes s).of_true
  | read loads => exact (execRead_lawful loads s).of_true
  | unknownAction a => exact (execUnknownAction_lawful a s).of_true
  | cpSelectRise bits val => exact (execCpSelectRise_lawful bits val s).of_true
  | cmdStallTimeout bits val => exact (execCmdStallTimeout_lawful bits val s).of_true
  | selectCollision cmdLow bits val => exact (execSelectCollision_lawful cmdLow bits val s).of_true
  | telSelectFall sckHigh => exact (execTelSelectFall_lawful sckHigh s).of_true
  | telemetryWord waited => exact (execTelemetryWord_lawful waited s).of_true
  | telSelectRise bits notReady => exact (execTelSelectRise_lawful bits notReady s).of_true
  | telemetryStateUpdate => exact (execTelemetryStateUpdate_lawful s).of_true
  | indexCrossing t => exact (execIndexCrossing_lawful t s).of_true
  | fsyncEdge rising t => exact (execFsyncEdge_lawful rising t s).of_true
  | frameLimitExpiry t => exact (execFrameLimitExpiry_lawful t s).of_true
  | boundaryGapOpen t => exact (execBoundaryGapOpen_lawful t s).of_true
  | tokenArrival d => exact (execTokenArrival_lawful d s).of_true
  | tokenAck => exact (execTokenAck_lawful s).of_true
  | gapEnd t => exact (execGapEnd_lawful t s).of_true
  | safePendingApply => exact (execSafePendingApply_lawful s).of_true
  | codeStep => exact (execCodeStep_lawful s).of_true
  | positionCrossing t => exact (execPositionCrossing_lawful t s).of_true
  | preFireGateOpen sid => exact (execPreFireGateOpen_lawful sid s).of_true
  | dcrLatch sid cur => exact (execDcrLatch_lawful sid cur s).of_true
  | fireEdge sid j => exact (execFireEdge_lawful sid j s).of_true
  | firePulseEnd e => exact execFirePulseEnd_lawful e s
  | amberEnd sid above => exact execAmberEnd_lawful sid above s
  | startAcceptClose sid j => exact (execStartAcceptClose_lawful sid j s).of_true
  | listenWindowEnd sid => exact (execListenWindowEnd_lawful sid s).of_true
  | rangeEvaluate sid peaks => exact (execRangeEvaluate_lawful sid peaks s).of_true
  | rangeApplyIdle c => exact execRangeApplyIdle_lawful c s
  | velocityEstimate => exact (execVelocityEstimate_lawful s).of_true
  | dwellSubintervalRoll => exact (execDwellSubintervalRoll_lawful s).of_true
  | protectiveFault src inst detail => exact execProtectiveFault_lawful src inst detail s
  | referenceLost => exact (execReferenceLost_lawful s).of_true
  | trigger c t => exact execTrigger_lawful c t s
  | zoneEventService c => exact execZoneEventService_lawful c s
  | zoneHoldExpiry p => exact execZoneHoldExpiry_lawful p s
  | startTrigger i t => exact execStartTrigger_lawful i t s
  | saturationAssert c t => exact execSaturationAssert_lawful c t s
  | stuckHighTimeout c => exact execStuckHighTimeout_lawful c s
  | indigoRequest t => exact (execIndigoRequest_lawful t s).of_true
  | calibrationParkRequest c anchor sid t => exact execCalibrationParkRequest_lawful c anchor sid t s
  | slotBoundaryDecision b => exact (execSlotBoundaryDecision_lawful b s).of_true
  | parkInstant b => exact (execParkInstant_lawful b s).of_true
  | ringRelinkRetire c b => exact execRingRelinkRetire_lawful c b s
  | samplerFillDone b => exact execSamplerFillDone_lawful b s
  | conversionCycleStart k => exact (execConversionCycleStart_lawful k s).of_true
  | rampEnd cells => exact (execRampEnd_lawful cells s).of_true
  | segmentsRejoin => exact (execSegmentsRejoin_lawful s).of_true
  | windowHandoff b => exact execWindowHandoff_lawful b s
  | stackedWindowEnter c i => exact execStackedWindowEnter_lawful c i s
  | engineTakeTask k => exact execEngineTakeTask_lawful k s
  | steal i => exact execSteal_lawful i s
  | windowTaskDone k => exact execWindowTaskDone_lawful k s
  | finishTaskCreate sid c => exact execFinishTaskCreate_lawful sid c s
  | finishTaskEnter k => exact execFinishTaskEnter_lawful k s
  | finishTaskDone k => exact execFinishTaskDone_lawful k s
  | groupRelease => exact (execGroupRelease_lawful s).of_true
  | releaseHorizon => exact (execReleaseHorizon_lawful s).of_true
  | eccSingle k m => exact execEccSingle_lawful k m s
  | eccDouble k m readers => exact execEccDouble_lawful k m readers s
  | engineReloadDone k => exact execEngineReloadDone_lawful k s
  | slateMarkReady ver => exact (execSlateMarkReady_lawful ver s).of_true
  | spillResume => exact (execSpillResume_lawful s).of_true
  | stationMerge => exact (execStationMerge_lawful s).of_true
  | calTempReadDone g => exact execCalTempReadDone_lawful g s
  | calPhaseComplete g => exact execCalPhaseComplete_lawful g s
  | calPhaseTimeout g => exact execCalPhaseTimeout_lawful g s
  | calStoreInterval => exact (execCalStoreInterval_lawful s).of_true
  | ditherFreePulse g => exact execDitherFreePulse_lawful g s
  | ditherGatedPulse g => exact execDitherGatedPulse_lawful g s
  | gainTestStep g step => exact execGainTestStep_lawful g step s
  | hkPassTrigger => exact (execHkPassTrigger_lawful s).of_true
  | hkTimerTick => exact (execHkTimerTick_lawful s).of_true
  | hkPwmEdge x falling => exact execHkPwmEdge_lawful x falling s
  | hkEntrySwitch v0 => exact (execHkEntrySwitch_lawful v0 s).of_true
  | hkEntryDelayEnd => exact (execHkEntryDelayEnd_lawful s).of_true
  | hkRefWaitTimeout => exact (execHkRefWaitTimeout_lawful s).of_true
  | refrdyChange r set => exact execRefrdyChange_lawful r set s
  | hkConversionEnd raw ovr => exact (execHkConversionEnd_lawful raw ovr s).of_true
  | hkbufWrite => exact (execHkbufWrite_lawful s).of_true
  | hkPauseStart => exact (execHkPauseStart_lawful s).of_true
  | hkPauseEnd cycles => exact (execHkPauseEnd_lawful cycles s).of_true
  | hkBlankEdge level cycles => exact (execHkBlankEdge_lawful level cycles s).of_true
  | hkBlankMaxAbort => exact (execHkBlankMaxAbort_lawful s).of_true
  | hkInjectHead => exact (execHkInjectHead_lawful s).of_true
  | selfcalStart => exact (execSelfcalStart_lawful s).of_true
  | selfcalEnd factors temp => exact (execSelfcalEnd_lawful factors temp s).of_true
  | hkBgTempMeasure temp => exact (execHkBgTempMeasure_lawful temp s).of_true
  | hkBgCalSlotEnd val => exact (execHkBgCalSlotEnd_lawful val s).of_true
  | excMonitorDeclare src short => exact execExcMonitorDeclare_lawful src short s
  | burnoutPulseEnd v1 => exact (execBurnoutPulseEnd_lawful v1 s).of_true
  | encoderEdge x a b => exact execEncoderEdge_lawful x a b s
  | encoderIndex x => exact execEncoderIndex_lawful x s
  | ssiFrameComplete x reading const => exact execSsiFrameComplete_lawful x reading const s
  | cmpReload x => exact execCmpReload_lawful x s
  | loopSample x => exact execLoopSample_lawful x s
  | driverFault x => exact execDriverFault_lawful x s
  | linkStateTransition => exact (execLinkStateTransition_lawful s).of_true
  | linkStageTimeout => exact (execLinkStageTimeout_lawful s).of_true
  | linkLockLoss => exact (execLinkLockLoss_lawful s).of_true
  | linkDownRetry => exact (execLinkDownRetry_lawful s).of_true
  | laneLockLoss k => exact execLaneLockLoss_lawful k s
  | invalidBlock k => exact execInvalidBlock_lawful k s
  | train k b => exact execTrain_lawful k b s
  | align k b => exact execAlign_lawful k b s
  | credit vs cum => exact execCredit_lawful vs cum s
  | laneErr k count => exact execLaneErr_lawful k count s
  | cargoFrameReceive k b => exact execCargoFrameReceive_lawful k b s
  | cargoFrameSend => exact (execCargoFrameSend_lawful s).of_true
  | creditSend => exact (execCreditSend_lawful s).of_true
  | alignMarkerSend => exact (execAlignMarkerSend_lawful s).of_true
  | refreshBurst => exact (execRefreshBurst_lawful s).of_true
  | teleFrameBuild => exact (execTeleFrameBuild_lawful s).of_true
  | partFrameFlush v => exact execPartFrameFlush_lawful v s
  | txSleepEntry k => exact execTxSleepEntry_lawful k s
  | rxDeepWake k => exact execRxDeepWake_lawful k s
  | apPerstTimer => exact (execApPerstTimer_lawful s).of_true
  | pcieLinkUp gen width cap => exact (execPcieLinkUp_lawful gen width cap s).of_true
  | pcieLinkTimeout => exact (execPcieLinkTimeout_lawful s).of_true
  | controllerReady ready => exact (execControllerReady_lawful ready s).of_true
  | nvmeCompletion cid ok dnr d => exact (execNvmeCompletion_lawful cid ok dnr d s).of_true
  | nvmeCommandTimeout cid => exact (execNvmeCommandTimeout_lawful cid s).of_true
  | pcieLinkDown => exact (execPcieLinkDown_lawful s).of_true
  | archiveRecordStage => exact (execArchiveRecordStage_lawful s).of_true
  | chunkSealTimer r => exact (execChunkSealTimer_lawful r s).of_true
  | checkpointTimer => exact (execCheckpointTimer_lawful s).of_true
  | healthReadTimer => exact (execHealthReadTimer_lawful s).of_true
  | heartbeatSend => exact (execHeartbeatSend_lawful s).of_true
  | heartbeat frame ringSeq crcOk => exact (execHeartbeat_lawful frame ringSeq crcOk s).of_true
  | sched ev crcOk t => exact (execSched_lawful ev crcOk t s).of_true
  | anchor t => exact (execAnchor_lawful t s).of_true
  | cross => exact (execCross_lawful s).of_true
  | frameEnd t => exact (execFrameEnd_lawful t s).of_true
  | pkt src dst bytes last crcOk => exact (execPkt_lawful src dst bytes last crcOk s).of_true
  | fault sender src crcOk => exact (execFault_lawful sender src crcOk s).of_true
  | loss sender crcOk => exact (execLoss_lawful sender crcOk s).of_true
  | enum entries crcOk => exact (execEnum_lawful entries crcOk s).of_true
  | ack sender kind crcOk => exact (execAck_lawful sender kind crcOk s).of_true
  | ringLossSlave => exact (execRingLossSlave_lawful s).of_true
  | heartbeatTimeout => exact (execHeartbeatTimeout_lawful s).of_true
  | breakAtTimeout => exact (execBreakAtTimeout_lawful s).of_true
  | enumTimeout => exact (execEnumTimeout_lawful s).of_true
  | timeSetAckTimeout => exact (execTimeSetAckTimeout_lawful s).of_true
  | timeSetLoad t => exact (execTimeSetLoad_lawful t s).of_true
  | forwardTimeout => exact (execForwardTimeout_lawful s).of_true
  | domainSwitchStep => exact (execDomainSwitchStep_lawful s).of_true
  | domainUp d => exact execDomainUp_lawful d s
  | quarterDrainEnd qt => exact execQuarterDrainEnd_lawful qt s
  | pllLockTimeout => exact (execPllLockTimeout_lawful s).of_true
  | clockLost c => exact (execClockLost_lawful c s).of_true
  | clockRestored c => exact (execClockRestored_lawful c s).of_true
  | railFlagUpdate vsl vap vhk => exact (execRailFlagUpdate_lawful vsl vap vhk s).of_true
  | updEraseStep => exact (execUpdEraseStep_lawful s).of_true
  | updEndComplete => exact (execUpdEndComplete_lawful s).of_true
  | activationCheckDone sigOk tagOk => exact (execActivationCheckDone_lawful sigOk tagOk s).of_true
  | supervisorRestart => exact (execSupervisorRestart_lawful s).of_true
  | warmStart => exact (execWarmStart_lawful s).of_true
  | cascadeCheckTimeout => exact (execCascadeCheckTimeout_lawful s).of_true
  | go => exact (execGo_lawful s).of_true
  | goTimeout => exact (execGoTimeout_lawful s).of_true
  | confirmTimerExpiry => exact (execConfirmTimerExpiry_lawful s).of_true
  | fallback => exact (execFallback_lawful s).of_true
  | bootHeaderErase copy => exact execBootHeaderErase_lawful copy s
  | faultClassify src inst detail => exact execFaultClassify_lawful src inst detail s
  | logBudgetRefill => exact (execLogBudgetRefill_lawful s).of_true
  | lockstepMismatch => exact (execLockstepMismatch_lawful s).of_true
  | pageBufferFlush => exact (execPageBufferFlush_lawful s).of_true
  | flashStatusPoll done good => exact (execFlashStatusPoll_lawful done good s).of_true
  | flashOpTimeout => exact (execFlashOpTimeout_lawful s).of_true
  | flashEraseRegister off size64 => exact execFlashEraseRegister_lawful off size64 s
  | windowReadSuspend off => exact execWindowReadSuspend_lawful off s
  | comparatorRearm c => exact execComparatorRearm_lawful c s
  | saturationRecovery c => exact execSaturationRecovery_lawful c s
  | blockLockLost k => exact execBlockLockLost_lawful k s
  | rxAdaptationComplete => exact (execRxAdaptationComplete_lawful s).of_true
  | controllerFatalStatus => exact (execControllerFatalStatus_lawful s).of_true
  | ringReceiverLockLoss => exact (execRingReceiverLockLoss_lawful s).of_true
  | powerOnResetRelease => exact (execPowerOnResetRelease_lawful s).of_true
  | spillComplete => exact (execSpillComplete_lawful s).of_true
  | unknownOpcode opc q => exact (execUnknownOpcode_lawful opc q s).of_true

/-! ### The obligations -/

/-- Settles O3: the law of every command leaves it no other answer. -/
theorem wellFormedCommandsNeverStop : Obligations.WellFormedCommandsNeverStop := by
  unfold Obligations.WellFormedCommandsNeverStop
  refine ⟨fun c s hc => ?_, fun c s r h => ?_, fun c s f h => ?_⟩
  · obtain ⟨t, ht, -⟩ := (hc ▸ exec_lawful c s).next_of_true
    exact ⟨t, ht⟩
  · exact (h ▸ exec_lawful c s : Lawful c.wf _ (.refused r))
  · exact (h ▸ exec_lawful c s : Lawful c.wf _ (.fault f))

/-- Settles O4: a step is a nanosecond that passes, which leaves the copies, or a command, which keeps their form. -/
theorem copiesKeepReservedBits : Obligations.CopiesKeepReservedBits := by
  unfold Obligations.CopiesKeepReservedBits
  intro s t hs h
  unfold step at h
  split at h
  · obtain rfl := Host.Outcome.next.inj h
    exact ((tick_only s).kept rfl).copies hs
  · next c r _ =>
    have hk : Lawful c.wf _ (.next t) := h ▸ exec_lawful c { s with pending := r }
    exact hk.copies hs

/-- Settles O53: RESETN_RELEASE is the one command whose law speaks of other straps than those of before. -/
theorem strapsAreSampledOnlyAtRelease : Obligations.StrapsAreSampledOnlyAtRelease := by
  unfold Obligations.StrapsAreSampledOnlyAtRelease
  intro c s t h
  have hk : Lawful c.wf _ (.next t) := h ▸ exec_lawful c s
  have hstraps : t.sys.straps = strapsAfter c s := hk.straps
  split
  · exact hstraps
  · next hc =>
    rw [strapsAfter_of_ne hc] at hstraps
    exact hstraps

end Sys2Proof.Machine
end

section
/-!
SUPPORT. The segment sampler, the slope converter and the front ends they read (R45-R50, R64-R79): what a read of a keyed
part returns after a write, what the sampler's operations do to a channel and to its windows, and the statements on them.
-/

namespace Sys2Proof.Machine

/-! ### Sparse tables: a read after a write -/

section Tables

variable {α : Type} {t : Tab α} {j k : Nat} {v : α}

theorem tget_tdel_same (d : α) : tget d (tdel t k) k = d := by
  induction t with
  | nil => rfl
  | cons p r ih =>
    unfold tdel
    split
    · exact ih
    · next h => simpa [tget, h] using ih

theorem tget_tdel_other (d : α) (h : j ≠ k) : tget d (tdel t k) j = tget d t j := by
  induction t with
  | nil => rfl
  | cons p r ih =>
    unfold tdel
    split
    · next hp => simpa [tget, hp, Ne.symm h] using ih
    · simp [tget, ih]

theorem tget_tins_tdel_same (d : α) : tget d (tins (tdel t k) k v) k = v := by
  induction t with
  | nil => simp [tdel, tins, tget]
  | cons p r ih =>
    unfold tdel
    split
    · exact ih
    · next hp =>
      unfold tins
      split
      · simp [tget]
      · simpa [tget, hp] using ih

theorem tget_tins_other (d : α) (h : j ≠ k) : tget d (tins t k v) j = tget d t j := by
  induction t with
  | nil => simp [tins, tget, Ne.symm h]
  | cons p r ih =>
    unfold tins
    split
    · simp [tget, Ne.symm h]
    · simp [tget, ih]

variable [DecidableEq α]

@[simp] theorem tget_tset_same (d : α) : tget d (tset d t k v) k = v := by
  unfold tset
  split
  · next hv => exact (tget_tdel_same d).trans hv.symm
  · exact tget_tins_tdel_same d

/-- Another key reads as before, under whatever default it is read. -/
theorem tget_tset_other (d e : α) (h : j ≠ k) : tget e (tset d t k v) j = tget e t j := by
  unfold tset
  split
  · exact tget_tdel_other e h
  · exact (tget_tins_other e h).trans (tget_tdel_other e h)

end Tables

/-! ### Keyed parts of the state: a read after a change -/

@[simp] theorem sampCh_modSampCh_same (c : Nat) (f : SampCh → SampCh) (s : State) : sampCh (modSampCh c f s) c = f (sampCh s c) :=
  tget_tset_same _

theorem sampCh_modSampCh_other {c k : Nat} (h : k ≠ c) (f : SampCh → SampCh) (s : State) :
    sampCh (modSampCh c f s) k = sampCh s k := tget_tset_other _ _ h

@[simp] theorem front_modFront_same (c : Nat) (f : Front → Front) (s : State) : front (modFront c f s) c = f (front s c) :=
  tget_tset_same _

theorem front_modFront_other {c k : Nat} (h : k ≠ c) (f : Front → Front) (s : State) : front (modFront c f s) k = front s k :=
  tget_tset_other _ _ h

@[simp] theorem engCh_modEngCh_same (c : Nat) (f : EngCh → EngCh) (s : State) : engCh (modEngCh c f s) c = f (engCh s c) :=
  tget_tset_same _

/-- A shot of a running number after a change of every shot that keeps the numbers. -/
theorem shotOf_modShots {f : Shot → Shot} (hf : ∀ x, (f x).sid = x.sid) (s : State) (sid : Nat) :
    shotOf (modShots f s) sid = (shotOf s sid).map f := by
  have hp : (fun x : Shot => x.sid == sid) ∘ f = fun x => x.sid == sid := funext fun x => congrArg (· == sid) (hf x)
  unfold shotOf modShots
  rw [List.find?_map, hp]

/-! ### The sampler's part -/

/-- A change of the sampler's part leaves everything else. -/
theorem setSamp_only (x : Samp) (s : State) : Only [.samp] s { s with samp := x } := by
  refine ⟨fun p hp => ?_⟩
  cases p
  case samp => exact absurd (.head _) hp
  all_goals simp [StatePart.same]

/-- A change of the sampler's part at a stated instant. -/
theorem advTo_setSamp_only (n : Nat) (x : Samp) (s : State) : Only [.samp, .time] s (advTo n { s with samp := x }) :=
  (advTo_only ..).andThen ((setSamp_only x s).weaken (L := [.samp, .time]))

@[simp] theorem advTo_samp (n : Nat) (s : State) : (advTo n s).samp = s.samp := rfl

@[simp] theorem modSampCh_wins (c : Nat) (f : SampCh → SampCh) (s : State) : (modSampCh c f s).samp.wins = s.samp.wins := rfl
@[simp] theorem modSampCh_reqs (c : Nat) (f : SampCh → SampCh) (s : State) : (modSampCh c f s).samp.reqs = s.samp.reqs := rfl
@[simp] theorem sampCh_modWin (wid : Nat) (f : Win → Win) (s : State) (c : Nat) : sampCh (modWin wid f s) c = sampCh s c := rfl

@[simp] theorem modWin_wins_length (wid : Nat) (f : Win → Win) (s : State) :
    (modWin wid f s).samp.wins.length = s.samp.wins.length := List.length_map ..

theorem mem_modWin {w : Win} {s : State} (hw : w ∈ s.samp.wins) (f : Win → Win) : f w ∈ (modWin w.wid f s).samp.wins :=
  List.mem_map.mpr ⟨w, hw, if_pos rfl⟩

@[simp] theorem idlePark_samp (c m : Nat) (s : State) : (idlePark c m s).samp = s.samp := (idlePark_only c m s).same .samp (by decide)

@[simp] theorem replaced_samp (c : Nat) (s : State) : (replaced c s).samp = s.samp := (replaced_only c s).same .samp (by decide)

@[simp] theorem lostPark_samp (c : Nat) (s : State) : (lostPark c s).samp = s.samp := (lostPark_only c s).same .samp (by decide)

/-- An operation that leaves the sampler's part leaves its channels. -/
theorem sampCh_of_samp {s t : State} (h : t.samp = s.samp) (c : Nat) : sampCh t c = sampCh s c :=
  congrArg (fun x : Samp => tget SampCh.reset x.chs c) h

@[simp] theorem sampCh_advTo (n : Nat) (s : State) (c : Nat) : sampCh (advTo n s) c = sampCh s c := rfl

@[simp] theorem sampCh_replaced (k : Nat) (s : State) (c : Nat) : sampCh (replaced k s) c = sampCh s c :=
  sampCh_of_samp (replaced_samp k s) c

@[simp] theorem sampCh_lostPark (k : Nat) (s : State) (c : Nat) : sampCh (lostPark k s) c = sampCh s c :=
  sampCh_of_samp (lostPark_samp k s) c

theorem lostPark_refused (c : Nat) (s : State) : (lostPark c s).fire.cnt.refused = satAdd 32 s.fire.cnt.refused 1 := by
  unfold lostPark
  dsimp only
  split <;> rfl

theorem lostPark_gapPend {c : Nat} (hc : c < 256) (s : State) : (engCh (lostPark c s) c).gapPend = true := by
  simp [lostPark, hc]

/-- One change of each channel of a list, which made again changes nothing more. -/
theorem sampCh_each_modSampCh {f : SampCh → SampCh} (hf : ∀ x, f (f x) = f x) (l : List Nat) (s : State) (c : Nat) :
    sampCh (each l (fun k => modSampCh k f) s) c = if c ∈ l then f (sampCh s c) else sampCh s c := by
  induction l generalizing s with
  | nil => simp [each]
  | cons k r ih =>
    refine (ih (modSampCh k f s)).trans ?_
    by_cases h : c = k
    · subst h
      simp [hf]
    · simp [h, sampCh_modSampCh_other h]

/-! ### Requests join the list (R66-R71) -/

theorem indigoRequest_joins {s : State} {q : Nat × Nat × Nat × Nat} {rest : List (Nat × Nat × Nat × Nat)} (t0 : Nat)
    (hq : s.samp.gateReqs = q :: rest) (hr : sampRuns s q.1 = true) :
    Completes (.indigoRequest t0) s [.samp, .time] fun t => t.samp.gateReqs = rest ∧
      t.samp.reqs = s.samp.reqs ++ [⟨q.1, .indigo, q.2.2.1, max t0 q.2.2.1, q.2.1, some q.2.2.2⟩] := by
  have e : exec (.indigoRequest t0) s = .next (addReq ⟨q.1, .indigo, q.2.2.1, max t0 q.2.2.1, q.2.1, some q.2.2.2⟩
      (advTo t0 { s with samp := { s.samp with gateReqs := rest } })) := by
    show execIndigoRequest t0 s = _
    unfold execIndigoRequest
    rw [hq]
    exact congrArg Host.Outcome.next (if_pos hr)
  exact ⟨_, e, (addReq_only ..).andThen (advTo_setSamp_only ..), rfl, rfl⟩

/-- The state in which a calibration park that reached the sampler at `t0` is judged. -/
def calReached (c a : Nat) (sid : Option Nat) (t0 : Nat) (s : State) : State :=
  advTo t0 { s with samp := { s.samp with calReqs := s.samp.calReqs.erase (c, a, sid) } }

theorem calReached_only (c a : Nat) (sid : Option Nat) (t0 : Nat) (s : State) :
    Only [.cal, .samp, .time] s (calReached c a sid t0 s) := (advTo_setSamp_only ..).weaken

/-- The sampler takes a calibration park (R71). -/
def calTaken (s : State) (c a : Nat) (sid : Option Nat) : Bool :=
  sampRuns s c && calParkOk s a sid &&
    (s.samp.calReqs.contains (c, a, sid) || sid.isSome || parkTime (calGrp s (groupOf c)) a)

theorem calTaken_iff {s : State} {c : Nat} (hr : sampRuns s c = true) (a : Nat) (sid : Option Nat) :
    calTaken s c a sid = true ↔ calParkOk s a sid = true ∧
      ((c, a, sid) ∈ s.samp.calReqs ∨ sid ≠ none ∨ parkTime (calGrp s (groupOf c)) a = true) := by
  simp [calTaken, hr, Option.isSome_iff_ne_none, or_assoc]

theorem exec_calibrationParkRequest {c : Nat} (hc : c < 260) (a : Nat) (sid : Option Nat) (t0 : Nat) (s : State) :
    exec (.calibrationParkRequest c a sid t0) s = .next (
      if !calTaken s c a sid then calReached c a sid t0 s
      else addReq ⟨c, .cal, 16 * a, max t0 (16 * a), 0, sid⟩
        (if sid.isNone && !s.samp.calReqs.contains (c, a, sid) then idlePark c a (calReached c a sid t0 s)
         else calReached c a sid t0 s)) := if_pos (decide_eq_true hc)

theorem calibrationParkRequest_joins {s : State} {c : Nat} (a : Nat) (sid : Option Nat) (t0 : Nat) (hc : c < 260)
    (hr : sampRuns s c = true) :
    let asked := (c, a, sid) ∈ s.samp.calReqs ∨ sid ≠ none ∨ parkTime (calGrp s (groupOf c)) a = true
    Completes (.calibrationParkRequest c a sid t0) s [.cal, .samp, .time] fun t =>
      t.samp.calReqs = s.samp.calReqs.erase (c, a, sid) ∧
      t.samp.reqs = if calParkOk s a sid = true ∧ asked then s.samp.reqs ++ [⟨c, .cal, 16 * a, max t0 (16 * a), 0, sid⟩]
        else s.samp.reqs := by
  intro asked
  have only1 := calReached_only c a sid t0 s
  refine ⟨_, exec_calibrationParkRequest hc a sid t0 s, ?_⟩
  by_cases h : calParkOk s a sid = true ∧ asked
  · simp only [(calTaken_iff hr a sid).mpr h, if_pos h, Bool.not_true, Bool.false_eq_true, if_false]
    split
    · exact ⟨(addReq_only ..).andThen ((idlePark_only ..).andThen only1), by simp [addReq, calReached], by simp [addReq, calReached]⟩
    · exact ⟨(addReq_only ..).andThen only1, rfl, rfl⟩
  · simp only [Bool.eq_false_iff.mpr (mt (calTaken_iff hr a sid).mp h), if_neg h, Bool.not_false, if_true]
    exact ⟨only1, rfl, rfl⟩

/-! ### Decisions at a slot boundary (R72-R74) -/

/-- The state in which slot boundary `b` decides the one request that waited. The windows, pools and blocks that a decision
reads are those of before, by definition. -/
def atBoundary (b : Nat) (s : State) : State := advTo (16 * b) { s with samp := { s.samp with reqs := [] } }

theorem atBoundary_only (b : Nat) (s : State) : Only [.samp, .time] s (atBoundary b s) := advTo_setSamp_only ..

@[simp] theorem sampCh_atBoundary (b : Nat) (s : State) (c : Nat) : sampCh (atBoundary b s) c = sampCh s c := rfl
@[simp] theorem wins_atBoundary (b : Nat) (s : State) : (atBoundary b s).samp.wins = s.samp.wins := rfl
@[simp] theorem reqs_atBoundary (b : Nat) (s : State) : (atBoundary b s).samp.reqs = [] := rfl

/-- One request that is due is decided alone, and none is left. -/
theorem slotBoundaryDecision_one {s : State} {b : Nat} {q : ParkReq} (hd : devRuns s = true) (hq : s.samp.reqs = [q])
    (hb : q.at_ ≤ 16 * b) : exec (.slotBoundaryDecision b) s = .next (decide1 b q (atBoundary b s)) := by
  show execSlotBoundaryDecision b s = _
  unfold execSlotBoundaryDecision
  simp only [hd, hq, hb, not_true_eq_false, if_false, List.filter, decide_true, Bool.not_true]
  rfl

theorem decide1_joins {s : State} {q : ParkReq} {w : Win} (b : Nat) (h : winAt s q.ch (anchorOf q) = some w) :
    decide1 b q s = joinWin q w s := by
  simp only [decide1, h]

/-- A channel without a window decides on the first pair alone. -/
theorem decide1_alone {s : State} {q : ParkReq} (b : Nat) (h : liveWins s q.ch = []) :
    decide1 b q s =
      let n := firstPair (rd s) q
      if q.kind = .indigo ∧ n + 64 < max b (n + 2) then
        lostPark q.ch (modSampCh q.ch (fun x => { x with lateMiss := satAdd 16 x.lateMiss 1 }) s)
      else if freePairs s q.ch = 0 ∨ (q.kind = .trigger ∧ freePairs s q.ch ≤ indReserve (rd s)) then refuse q s
      else reserve q n b s := by
  have hw : ∀ m, winAt s q.ch m = none := fun m => by simp [winAt, h]
  simp [decide1, hw]

theorem mem_wins_of_winAt {s : State} {c m : Nat} {w : Win} (h : winAt s c m = some w) : w ∈ s.samp.wins :=
  (List.mem_filter.mp (List.mem_of_find?_eq_some h)).1

theorem joinWin_reqs (q : ParkReq) (w : Win) (s : State) : (joinWin q w s).samp.reqs = s.samp.reqs := by
  unfold joinWin
  split
  · rfl
  all_goals dsimp only; split <;> rfl

theorem joinWin_wins_length (q : ParkReq) (w : Win) (s : State) :
    (joinWin q w s).samp.wins.length = s.samp.wins.length := by
  unfold joinWin
  split
  · rfl
  all_goals dsimp only; split <;> simp

theorem joinWin_cal {q : ParkReq} (hk : q.kind = .cal) (w : Win) (s : State) :
    joinWin q w s = modSampCh q.ch (fun x => { x with calOvf := satAdd 8 x.calOvf 1 }) s := by
  simp only [joinWin, hk]

/-- A trigger marks the window it joins. -/
theorem joinWin_trigger {q : ParkReq} {w : Win} {s : State} (hk : q.kind = .trigger) (hw : w ∈ s.samp.wins) (hr : w.reason ≠ .cal) :
    ∃ v ∈ (joinWin q w s).samp.wins, v.wid = w.wid ∧ v.hasTrig = true ∧ v.trig2 = (w.trig2 || w.hasTrig) ∧
      v.reason = joinReason w.reason .trigger ∧ v.raw = ((w.reason != .cal && w.raw) || rawTrig (rd s)) := by
  simp only [joinWin, hk, if_neg hr]
  exact ⟨_, mem_modWin hw _, rfl, rfl, rfl, rfl, rfl⟩

theorem slotBoundaryDecision_joins {s : State} {b : Nat} {q : ParkReq} {w : Win} (hd : devRuns s = true) (hq : s.samp.reqs = [q])
    (hb : q.at_ ≤ 16 * b) (hw : winAt s q.ch (anchorOf q) = some w) (hr : w.reason ≠ .cal) :
    Completes (.slotBoundaryDecision b) s [.samp, .time] fun t => t.samp.reqs = [] ∧ t.samp.wins.length = s.samp.wins.length ∧
      (q.kind = .cal → (sampCh t q.ch).calOvf = satAdd 8 (sampCh s q.ch).calOvf 1 ∧ t.samp.wins = s.samp.wins) ∧
      (q.kind = .trigger → ∃ v ∈ t.samp.wins, v.wid = w.wid ∧ v.hasTrig = true ∧ v.trig2 = (w.trig2 || w.hasTrig) ∧
        v.reason = joinReason w.reason .trigger ∧ v.raw = ((w.reason != .cal && w.raw) || rawTrig (rd s))) := by
  have e := slotBoundaryDecision_one hd hq hb
  rw [decide1_joins b (s := atBoundary b s) hw] at e
  refine ⟨_, e, (joinWin_only ..).andThen (atBoundary_only ..), joinWin_reqs .., joinWin_wins_length .., fun hk => ?_, fun hk => ?_⟩
  · simp [joinWin_cal hk]
  · exact joinWin_trigger (s := atBoundary b s) hk (mem_wins_of_winAt hw) hr

/-- Slot boundary `b` turns request `q` away, when it is of kind `k`, with the count that `p` states: no window is made, and a
trigger or gate so lost counts in REFUSED and leaves GAP pending on its return channel (R72, R73). -/
def TurnsAway (b : Nat) (q : ParkReq) (s : State) (k : ReqKind) (p : State → Prop) : Prop :=
  q.kind = k → Completes (.slotBoundaryDecision b) s [.counts, .eng, .samp, .time] fun t =>
    t.samp.reqs = [] ∧ t.samp.wins = s.samp.wins ∧ p t ∧ (k ≠ .cal →
      t.fire.cnt.refused = satAdd 32 s.fire.cnt.refused 1 ∧ (q.ch < 256 → (engCh t q.ch).gapPend = true))

/-- A trigger or gate that the boundary loses under a counter of its channel. -/
theorem turnsAway_lost {s : State} {b : Nat} {q : ParkReq} {k : ReqKind} {p : State → Prop} {f : SampCh → SampCh}
    (e : q.kind = k → exec (.slotBoundaryDecision b) s = .next (lostPark q.ch (modSampCh q.ch f (atBoundary b s))))
    (hp : ∀ t, sampCh t q.ch = f (sampCh s q.ch) → p t) : TurnsAway b q s k p := by
  intro hk
  refine ⟨_, e hk, (lostPark_only ..).andThen ((modSampCh_only ..).andThen (atBoundary_only ..).weaken), ?_, ?_, hp _ ?_,
    fun _ => ⟨lostPark_refused .., fun hc => lostPark_gapPend hc _⟩⟩
  all_goals simp

theorem slotBoundaryDecision_late {s : State} {b : Nat} {q : ParkReq} (hd : devRuns s = true) (hq : s.samp.reqs = [q])
    (hb : q.at_ ≤ 16 * b) (hw : liveWins s q.ch = [])
    (hl : q.kind = .indigo ∧ firstPair (rd s) q + 64 < max b (firstPair (rd s) q + 2)) :
    TurnsAway b q s .indigo fun t => (sampCh t q.ch).lateMiss = satAdd 16 (sampCh s q.ch).lateMiss 1 := by
  refine turnsAway_lost (f := fun x => { x with lateMiss := satAdd 16 x.lateMiss 1 }) (fun _ => ?_) fun t ht => congrArg SampCh.lateMiss ht
  rw [slotBoundaryDecision_one hd hq hb, decide1_alone b (s := atBoundary b s) hw]
  exact congrArg Host.Outcome.next (if_pos hl)

theorem slotBoundaryDecision_refuses {s : State} {b : Nat} {q : ParkReq} (hd : devRuns s = true) (hq : s.samp.reqs = [q])
    (hb : q.at_ ≤ 16 * b) (hw : liveWins s q.ch = [])
    (hl : ¬ (q.kind = .indigo ∧ firstPair (rd s) q + 64 < max b (firstPair (rd s) q + 2)))
    (hf : freePairs s q.ch = 0 ∨ (q.kind = .trigger ∧ freePairs s q.ch ≤ indReserve (rd s))) :
    TurnsAway b q s .trigger (fun t => (sampCh t q.ch).parkOvf = satAdd 16 (sampCh s q.ch).parkOvf 1) ∧
    TurnsAway b q s .indigo (fun t => (sampCh t q.ch).gateOvf = satAdd 16 (sampCh s q.ch).gateOvf 1) ∧
    TurnsAway b q s .cal fun t => (sampCh t q.ch).calOvf = satAdd 8 (sampCh s q.ch).calOvf 1 := by
  have e : exec (.slotBoundaryDecision b) s = .next (refuse q (atBoundary b s)) := by
    rw [slotBoundaryDecision_one hd hq hb, decide1_alone b (s := atBoundary b s) hw]
    exact congrArg Host.Outcome.next ((if_neg hl).trans (if_pos hf))
  refine ⟨turnsAway_lost (f := fun x => { x with parkOvf := satAdd 16 x.parkOvf 1 }) (fun hk => ?_)
      fun t ht => congrArg SampCh.parkOvf ht,
    turnsAway_lost (f := fun x => { x with gateOvf := satAdd 16 x.gateOvf 1 }) (fun hk => ?_)
      fun t ht => congrArg SampCh.gateOvf ht,
    fun hk => ?_⟩
  · simp only [e, refuse, hk]
  · simp only [e, refuse, hk]
  · simp only [refuse, hk] at e
    exact ⟨_, e, (modSampCh_only ..).andThen ((atBoundary_only ..).weaken), rfl, rfl, by simp, fun h => absurd rfl h⟩

/-- A spare taken from a pool that is not empty was in it. -/
theorem takeSpare_mem {c : Nat} {s : State} (h : (sampCh s c).pool ≠ []) : (takeSpare c s).1 ∈ (sampCh s c).pool := by
  have hl : 0 < (sampCh s c).pool.length := List.length_pos_iff.mpr h
  have hlt : (takeFree 8 s).1 % max 1 (sampCh s c).pool.length < (sampCh s c).pool.length := by
    rw [Nat.max_eq_right hl]
    exact Nat.mod_lt _ hl
  show (sampCh s c).pool.getD _ 0 ∈ (sampCh s c).pool
  rw [List.getD_eq_getElem?_getD, List.getElem?_eq_getElem hlt]
  exact List.getElem_mem hlt

theorem takeSpare_pool (c : Nat) (s : State) :
    (sampCh (takeSpare c s).2 c).pool = remNat (sampCh s c).pool (takeSpare c s).1 := by
  simp only [takeSpare, sampCh_modSampCh_same]
  rfl

theorem pool_ne_nil_of_freePairs {s : State} {c : Nat} (h : freePairs s c ≠ 0) : (sampCh s c).pool ≠ [] := by
  intro hp
  simp [freePairs, hp] at h

theorem slotBoundaryDecision_reserves {s : State} {b : Nat} {q : ParkReq} (hd : devRuns s = true) (hq : s.samp.reqs = [q])
    (hb : q.at_ ≤ 16 * b) (hw : liveWins s q.ch = [])
    (hl : ¬ (q.kind = .indigo ∧ firstPair (rd s) q + 64 < max b (firstPair (rd s) q + 2)))
    (hf : ¬ (freePairs s q.ch = 0 ∨ (q.kind = .trigger ∧ freePairs s q.ch ≤ indReserve (rd s)))) :
    let n := firstPair (rd s) q
    Completes (.slotBoundaryDecision b) s [.free, .samp, .time] fun t => t.samp.reqs = [] ∧ ∃ w, t.samp.wins = s.samp.wins ++ [w] ∧
      w.ch = q.ch ∧ w.slot = n ∧ w.posA = n % 64 ∧ w.posB = (n + 1) % 64 ∧ w.first = 16 * n ∧ w.raw = rawKind (rd s) q.kind ∧
      w.parkAt = max b (n + 2) ∧ w.stage = .reserved ∧ w.reason = reasonOf q.kind ∧
      w.spareA ∈ (sampCh s q.ch).pool ∧ (sampCh t q.ch).pool = remNat (remNat (sampCh s q.ch).pool w.spareA) w.spareB := by
  intro n
  have e : exec (.slotBoundaryDecision b) s = .next (reserve q n b (atBoundary b s)) := by
    rw [slotBoundaryDecision_one hd hq hb, decide1_alone b (s := atBoundary b s) hw]
    exact congrArg Host.Outcome.next ((if_neg hl).trans (if_neg hf))
  have hpool : (sampCh (atBoundary b s) q.ch).pool ≠ [] := pool_ne_nil_of_freePairs fun h => hf (.inl h)
  refine ⟨_, e, (reserve_only ..).andThen ((atBoundary_only ..).weaken), rfl, _, rfl, rfl, rfl, rfl, rfl, rfl, rfl, rfl, rfl, rfl,
    takeSpare_mem hpool, ?_⟩
  exact (takeSpare_pool ..).trans (congrArg (remNat · _) (takeSpare_pool ..))

/-! ### Parks, retirement and filling (R65, R68, R75, R76) -/

theorem parkInstant_parks {s : State} {b : Nat} {w : Win} (hd : devRuns s = true)
    (hw : s.samp.wins.filter (fun w => w.stage == .reserved && decide (w.parkAt ≤ b)) = [w]) (hp : w.posA ≠ w.posB) :
    Completes (.parkInstant b) s [.samp, .time] fun t =>
      let x := fun (s : State) p => tget p (sampCh s w.ch).ring p
      (∃ v ∈ t.samp.wins, v.wid = w.wid ∧ v.stage = .parked ∧ v.segA = x s w.posA ∧ v.segB = x s w.posB ∧
        v.rtag = (front s w.ch).range ∧ v.sat = satOver (front s w.ch) w.first ∧ v.cycle = convCycle (16 * b)) ∧
      x t w.posA = w.spareA ∧ x t w.posB = w.spareB ∧ ∀ p, p ≠ w.posA → p ≠ w.posB → x t p = x s p := by
  have e : exec (.parkInstant b) s = .next (parkWin b w (advTo (16 * b) s)) := by
    show execParkInstant b s = _
    simp only [execParkInstant, hd, hw, not_true_eq_false, if_false]
    rfl
  have hmem : w ∈ s.samp.wins := (List.mem_filter.mp (hw ▸ List.mem_singleton_self w)).1
  have hring : (sampCh (parkWin b w (advTo (16 * b) s)) w.ch).ring =
      tset w.posB (tset w.posA (sampCh s w.ch).ring w.posA w.spareA) w.posB w.spareB := by
    simp [parkWin]
  refine ⟨_, e, (parkWin_only ..).andThen ((advTo_only ..).weaken (L := [.samp, .time])), ?_⟩
  simp only [hring]
  refine ⟨⟨_, mem_modWin (s := modSampCh w.ch _ _) hmem _, rfl, rfl, rfl, rfl, rfl, rfl, rfl⟩, ?_, ?_, fun p ha hb => ?_⟩
  · rw [tget_tset_other _ _ hp, tget_tset_same]
  · rw [tget_tset_same]
  · rw [tget_tset_other _ _ hb, tget_tset_other _ _ ha]

/-- What the replacement of segment `k`, met at position `p`, by redundant segment `n` makes of a channel. -/
def relinkMet (p k n : Nat) (r : List Nat) (x : SampCh) : SampCh := relinkRedun { x with toRetire := remNat x.toRetire k } p k n r

theorem ringRelinkRetire_replaces {s : State} {c b n : Nat} {r : List Nat} (hc : c < 260) (hr : sampRuns s c = true)
    (hn : (sampCh s c).redun = n :: r) :
    let k := tget (b % 64) (sampCh s c).ring (b % 64)
    k ∈ (sampCh s c).toRetire → Completes (.ringRelinkRetire c b) s [.cal, .hk, .samp, .time] fun t =>
      tget (b % 64) (sampCh t c).ring (b % 64) = n ∧ (sampCh t c).redun = r ∧ (sampCh t c).toRetire = remNat (sampCh s c).toRetire k ∧
      (sampCh t c).retired = (sampCh s c).retired ++ [k] := by
  intro k hk
  have e : exec (.ringRelinkRetire c b) s = .next (replaced c (modSampCh c (relinkMet (b % 64) k n r) (advTo (16 * b) s))) := by
    show execRingRelinkRetire c b s = _
    have hk' : (sampCh s c).toRetire.contains k = true := List.contains_iff_mem.mpr hk
    simp only [execRingRelinkRetire, guardObj, hc, hr, hn, hk', decide_true, not_true_eq_false, or_self, if_true, if_false, k]
    rfl
  refine ⟨_, e, (replaced_only ..).andThen ((modSampCh_only ..).andThen (advTo_only ..).weaken), ?_⟩
  simp only [sampCh_replaced, sampCh_modSampCh_same, sampCh_advTo]
  exact ⟨tget_tset_same _, rfl, rfl, rfl⟩

theorem samplerFillDone_fills {s : State} {g : Nat} (hg : g < 9) (hr : sampRuns s ((groupChans g).headD 0) = true) :
    Completes (.samplerFillDone g) s [.samp] fun t =>
      ∀ c, sampCh t c = if c ∈ groupChans g then { sampCh s c with filled := true } else sampCh s c := by
  have e : exec (.samplerFillDone g) s = .next (each (groupChans g) (fun c => modSampCh c fun x => { x with filled := true }) s) := by
    show execSamplerFillDone g s = _
    simp only [execSamplerFillDone, guardObj, hg, hr, decide_true, if_true]
  exact ⟨_, e, .each (fun c => modSampCh_only c _) (.refl ..),
    sampCh_each_modSampCh (f := fun x => { x with filled := true }) (fun _ => rfl) (groupChans g) s⟩

/-! ### Conversion (R77-R79) -/

theorem conversionCycleStart_takes {s : State} (k : Nat) (hd : devRuns s = true) :
    Completes (.conversionCycleStart k) s [.samp, .time] fun t => t.samp.conv = some (k, false) ∧
      t.samp.wins = s.samp.wins.map fun w =>
        if w.stage = .parked ∧ (w.cycle < k ∨ w.carried = true) then { w with stage := .converting } else w :=
  ⟨_, if_neg (not_not_intro hd), advTo_setSamp_only .., rfl, rfl⟩

theorem rampEnd_converts {s : State} {k : Nat} (cells : List (Nat × List Latch)) (hc : s.samp.conv = some (k, false)) :
    Completes (.rampEnd cells) s [.samp] fun t => t.samp.conv = some (k, true) ∧
      t.samp.wins = s.samp.wins.map fun w => if w.stage = .converting then
        { w with stage := .converted
                 codes := (List.range 32).map fun i => latchCode (((lookupNat cells w.wid).getD []).getD i .none) } else w := by
  show ∃ t, execRampEnd cells s = .next t ∧ _
  simp only [execRampEnd, hc]
  exact ⟨_, rfl, setSamp_only .., rfl, rfl⟩

/-- The converted windows count as rejoined, and those that CORE has are dropped. -/
def rejoinWins (l : List Win) : List Win :=
  (l.map fun w => if w.stage = .converted then { w with rejoined := true } else w).filter fun w => !(w.rejoined && w.handed)

theorem rejoinWins_converted {l : List Win} {v : Win} (hv : v ∈ rejoinWins l) (hs : v.stage = .converted) :
    v.rejoined = true ∧ v.handed = false := by
  obtain ⟨hm, hk⟩ := List.mem_filter.mp hv
  obtain ⟨w, -, rfl⟩ := List.mem_map.mp hm
  by_cases hw : w.stage = .converted
  · simpa [hw] using hk
  · simp [hw] at hs

/-- A segment joins the spares. -/
def addSpare (k : Nat) (x : SampCh) : SampCh := { x with pool := x.pool ++ [k] }

theorem returnSeg_kept {s : State} {c k : Nat} (h : k ∉ (sampCh s c).toRetire) : returnSeg c k s = modSampCh c (addSpare k) s :=
  if_neg (by simpa using h)

/-- Both segments of a window return, neither to be retired. -/
theorem returnSeg_both {s : State} {c k l : Nat} (hk : k ∉ (sampCh s c).toRetire) (hl : l ∉ (sampCh s c).toRetire) :
    returnSeg c l (returnSeg c k s) = modSampCh c (addSpare l) (modSampCh c (addSpare k) s) := by
  rw [returnSeg_kept hk]
  exact returnSeg_kept (by rw [sampCh_modSampCh_same]; exact hl)

theorem segmentsRejoin_returns {s : State} {w : Win} (hw : s.samp.wins.filter (fun w => w.stage == .converted && !w.rejoined) = [w])
    (ha : w.segA ∉ (sampCh s w.ch).toRetire) (hb : w.segB ∉ (sampCh s w.ch).toRetire) :
    Completes .segmentsRejoin s [.samp] fun t => (sampCh t w.ch).pool = (sampCh s w.ch).pool ++ [w.segA, w.segB] ∧
      ∀ v ∈ t.samp.wins, v.stage = .converted → v.rejoined = true ∧ v.handed = false := by
  have e : exec .segmentsRejoin s = .next (modSampCh w.ch (addSpare w.segB) (modSampCh w.ch (addSpare w.segA)
      { s with samp := { s.samp with wins := rejoinWins s.samp.wins } })) := by
    show execSegmentsRejoin s = _
    simp only [execSegmentsRejoin, hw]
    exact congrArg Host.Outcome.next (returnSeg_both ha hb)
  refine ⟨_, e, (modSampCh_only ..).andThen ((modSampCh_only ..).andThen (setSamp_only ..)), ?_, fun v hv => rejoinWins_converted hv⟩
  simp only [sampCh_modSampCh_same]
  exact List.append_assoc ..

/-! ### Saturation and the comparator (R45-R50) -/

@[simp] theorem front_noteSat (c t : Nat) (s : State) (k : Nat) : front (noteSat c t s) k = front s k := by
  unfold noteSat
  split <;> rfl

/-- Outside amber every shot whose listening window holds the instant notes the assertion. -/
theorem noteSat_notes {s : State} {c t sid : Nat} {x : Shot} (ha : amberAt s c t = false) (hx : shotOf s sid = some x)
    (hc : c ∈ x.group) (hl : inListen x t = true) : ∃ y, shotOf (noteSat c t s) sid = some y ∧ c ∈ y.satSeen := by
  rw [noteSat, if_neg (by simp [ha]), shotOf_modShots (fun x => by split <;> rfl), hx]
  refine ⟨_, rfl, ?_⟩
  dsimp only
  split
  · simp
  · next hn => simpa [hc, hl] using hn

/-- What an assertion at `t` makes of the front end. -/
def satOn (t : Nat) (x : Front) : Front := { x with sat := true, satAt := if x.sat then x.satAt else t }

/-- The state with an assertion at `t` in its input's front end, before the shots note it. -/
def satRaised (c t : Nat) (s : State) : State := modFront c (satOn t) (advTo t s)

theorem satRaised_only (c t : Nat) (s : State) : Only [.fronts, .shots, .time] s (satRaised c t s) :=
  (modFront_only ..).andThen (advTo_only ..).weaken

theorem front_satRaised_same (c t : Nat) (s : State) : front (satRaised c t s) c = satOn t (front s c) := front_modFront_same ..

theorem front_satRaised_other {c k : Nat} (h : k ≠ c) (t : Nat) (s : State) : front (satRaised c t s) k = front s k :=
  front_modFront_other h ..

/-- Amber does not turn on saturation. -/
theorem amberAt_satRaised (c t : Nat) (s : State) : amberAt (satRaised c t s) c t = amberAt s c t := by
  simp only [amberAt, front_satRaised_same, satOn]

theorem saturationAssert_notes {s : State} {c : Nat} (t0 : Nat) (hc : c < 260) (hr : sampRuns s c = true) :
    Completes (.saturationAssert c t0) s [.fronts, .shots, .time] fun t =>
      front t c = { front s c with sat := true, satAt := if (front s c).sat = true then (front s c).satAt else t0 } ∧
      (∀ k, k ≠ c → front t k = front s k) ∧
      (c < 256 → amberAt s c t0 = false → ∀ sid x, shotOf s sid = some x → c ∈ x.group → inListen x t0 = true →
        ∃ y, shotOf t sid = some y ∧ c ∈ y.satSeen) := by
  have e : exec (.saturationAssert c t0) s =
      .next (if c < 256 then noteSat c t0 (satRaised c t0 s) else satRaised c t0 s) :=
    (if_pos (decide_eq_true hc)).trans (congrArg Host.Outcome.next (if_pos hr))
  have only1 := satRaised_only c t0 s
  have same1 := front_satRaised_same c t0 s
  have other1 : ∀ k, k ≠ c → front (satRaised c t0 s) k = front s k := fun k hk => front_satRaised_other hk ..
  refine ⟨_, e, ?_⟩
  by_cases h : c < 256
  · simp only [if_pos h, front_noteSat]
    exact ⟨(noteSat_only ..).andThen only1, same1, other1, fun _ ha sid x hx hg hl =>
      noteSat_notes (s := satRaised c t0 s) ((amberAt_satRaised c t0 s).trans ha) hx hg hl⟩
  · simp only [if_neg h]
    exact ⟨only1, same1, other1, fun hc => absurd hc h⟩

theorem saturationRecovery_logs {s : State} {c : Nat} (hc : c < 260) :
    Completes (.saturationRecovery c) s [.fronts] fun t => (front t c).sat = false ∧
      ((front s c).sat = true → ((front s c).satAt, s.sys.cyc) ∈ (front t c).satLog) ∧ ∀ k, k ≠ c → front t k = front s k := by
  refine ⟨_, if_pos (decide_eq_true hc), modFront_only .., ?_, fun hs => ?_, fun k hk => front_modFront_other hk ..⟩
  · rw [front_modFront_same]
    split
    · rfl
    · next hs => exact Bool.eq_false_iff.mpr hs
  · rw [front_modFront_same, if_pos hs]
    exact .head _

theorem comparatorRearm_opens {s : State} {c : Nat} (hc : c < 260) (hr : sampRuns s c = true) :
    Completes (.comparatorRearm c) s [.fronts] fun t =>
      front t c = { front s c with armed := true } ∧ ∀ k, k ≠ c → front t k = front s k :=
  ⟨_, (if_pos (decide_eq_true hc)).trans (congrArg Host.Outcome.next (if_pos hr)), modFront_only .., front_modFront_same ..,
    fun _ hk => front_modFront_other hk ..⟩

theorem stuckHighTimeout_raises {s : State} {c : Nat} (hc : c < 256) (hr : sampRuns s c = true) (ha : (front s c).armed = false)
    (hm : amber s c = false) (hs : suppressed s c = false) :
    Completes (.stuckHighTimeout c) s [.fltQueue, .free] fun t => ∃ d, t.flt.queue = s.flt.queue ++ [(3, c, d)] := by
  have e : exec (.stuckHighTimeout c) s = .next (raiseOpen 3 c s) :=
    (if_pos (decide_eq_true hc)).trans (congrArg Host.Outcome.next (if_pos (by simp [hr, ha, hm, hs])))
  exact ⟨_, e, (raiseOpen_only ..).weaken, _, rfl⟩

/-! ### The obligations of the sampler -/

/-- Settles O44: the boundary's one request is decided by `decide1` alone, which joins the window at its anchor or, where the
channel has none, comes to a late gate, a refusal or a reserved pair. -/
theorem theSamplerDecidesAndParks : Obligations.TheSamplerDecidesAndParks := by
  unfold Obligations.TheSamplerDecidesAndParks
  refine ⟨fun s t0 q rest hq hr => indigoRequest_joins t0 hq hr,
    fun s c a sid t0 hc hr => calibrationParkRequest_joins a sid t0 hc hr,
    fun s b q hd hq hb => ⟨fun w hw hr => slotBoundaryDecision_joins hd hq hb hw hr, fun hw => ?_⟩,
    fun s b w hd hw hp => parkInstant_parks hd hw hp,
    fun s c b n r hc hr hn => ringRelinkRetire_replaces hc hr hn,
    fun s g hg hr => samplerFillDone_fills hg hr⟩
  intro n adds
  split
  · next hl => exact slotBoundaryDecision_late hd hq hb hw hl
  · next hl =>
    split
    · next hf => exact slotBoundaryDecision_refuses hd hq hb hw hl hf
    · next hf => exact slotBoundaryDecision_reserves hd hq hb hw hl hf

/-- Settles O45: each command is one change of the windows, of the channel's pool or of the input's front end. -/
theorem windowsConvertAndSegmentsReturn : Obligations.WindowsConvertAndSegmentsReturn := by
  unfold Obligations.WindowsConvertAndSegmentsReturn
  exact ⟨fun s k hd => conversionCycleStart_takes k hd,
    fun s k cells hc => rampEnd_converts cells hc,
    fun s w hw ha hb => segmentsRejoin_returns hw ha hb,
    fun s c t0 hc hr => saturationAssert_notes t0 hc hr,
    fun s c hc => saturationRecovery_logs hc,
    fun s c hc hr => comparatorRearm_opens hc hr,
    fun s c hc hr ha hm hs => stuckHighTimeout_raises hc hr ha hm hs⟩

end Sys2Proof.Machine
end

section
/-!
SUPPORT. The archive port's records, chunks, checkpoints, station merges and health reads (R166, R378-R388): what a command to
the drive changes of the archive's part, and what each of these operations does, clause by clause of O39. One clause fails, for
one number: a new station's slot is listed unless the station is 0xFFFFFFFF, the default of the directory's table.
-/

namespace Sys2Proof.Machine

/-! ### Sparse tables: whether a key is listed after a write -/

section Tables

variable {α : Type} (t : Tab α) (k : Nat) (v : α)

theorem lookupNat_tdel_same : lookupNat (tdel t k) k = none := by
  induction t with
  | nil => rfl
  | cons p r ih =>
    unfold tdel
    split
    · exact ih
    · next hp => simpa [lookupNat, hp] using ih

theorem lookupNat_tins_tdel_same : lookupNat (tins (tdel t k) k v) k = some v := by
  induction t with
  | nil => simp [tdel, tins, lookupNat]
  | cons p r ih =>
    unfold tdel
    split
    · exact ih
    · next hp =>
      unfold tins
      split
      · simp [lookupNat]
      · simpa [lookupNat, hp] using ih

/-- A write lists its key, unless it writes the table's default. -/
theorem lookupNat_tset_same [DecidableEq α] (d : α) : lookupNat (tset d t k v) k = if v = d then none else some v := by
  unfold tset
  split
  · exact lookupNat_tdel_same t k
  · exact lookupNat_tins_tdel_same t k v

end Tables

/-! ### The archive's part and the stacks' part -/

/-- A change of the archive's part leaves everything else. -/
theorem setArch_only (x : Arch) (s : State) : Only [.arch] s { s with arch := x } := by
  refine ⟨fun p hp => ?_⟩
  cases p
  case arch => exact absurd (.head _) hp
  all_goals simp [StatePart.same]

/-- A change of the stacks' part leaves everything else. -/
theorem setStk_only (x : Stk) (s : State) : Only [.stk] s { s with stk := x } := by
  refine ⟨fun p hp => ?_⟩
  cases p
  case stk => exact absurd (.head _) hp
  all_goals simp [StatePart.same]

/-- What a command completes with is one state, whatever is said of it. -/
theorem Completes.both {c : Instr} {s : State} {l k : List StatePart} {P Q : State → Prop} (hp : Completes c s l P)
    (hq : Completes c s k Q) : ∃ t, P t ∧ Q t := by
  obtain ⟨t, ht, -, hpt⟩ := hp
  obtain ⟨u, hu, -, hqu⟩ := hq
  obtain rfl := Host.Outcome.next.inj (ht.symm.trans hu)
  exact ⟨t, hpt, hqu⟩

@[simp] theorem ringOf_modRing_same (r : Nat) (f : Ring → Ring) (s : State) : ringOf (modRing r f s) r = f (ringOf s r) :=
  tget_tset_same _

theorem ringOf_modRing_other {r k : Nat} (h : k ≠ r) (f : Ring → Ring) (s : State) : ringOf (modRing r f s) k = ringOf s k :=
  tget_tset_other _ _ h

@[simp] theorem ringOf_advNow (n : Nat) (s : State) (r : Nat) : ringOf (advNow n s) r = ringOf s r := rfl

theorem advNow_now (n : Nat) (s : State) : (advNow n s).sys.now = max s.sys.now n := by
  show s.sys.now + (n - s.sys.now) = _
  omega

/-! ### Commands to the drive (R370, R388) -/

/-- A count of bytes moves the wear buckets and the hold they bring, nothing else of the archive. -/
theorem countBytes_arch (n : Nat) (s : State) : (countBytes n s).arch =
    { s.arch with buckets := (countBytes n s).arch.buckets, budgetHold := (countBytes n s).arch.budgetHold } := by
  unfold countBytes
  split
  · rfl
  · split
    all_goals dsimp only; split <;> rfl

@[simp] theorem countBytes_zero (s : State) : countBytes 0 s = s := if_pos (.inr rfl)

theorem oneXfer_le (s : State) (n : Nat) : oneXfer s n ≤ n := by
  unfold oneXfer
  split
  · exact Nat.le_refl n
  · exact Nat.min_le_left ..

@[simp] theorem oneXfer_zero (s : State) : oneXfer s 0 = 0 := Nat.le_zero.mp (oneXfer_le s 0)

/-- The command that goes to the drive first for a write of `data`. -/
def writeCmd (use : NvmeUse) (addr : Nat) (data : List Byte) (s : State) : NvmeCmd :=
  let w := oneXfer s data.length
  ⟨s.arch.nextCid, use, addr, data.take w, 0, data.drop w, 0, [], s.sys.now, false⟩

theorem writeCmd_bytes (use : NvmeUse) (addr : Nat) (data : List Byte) (s : State) :
    (writeCmd use addr data s).data ++ (writeCmd use addr data s).more = data := List.take_append_drop ..

/-- A write joins the outstanding commands; of the archive it changes besides only the identifier and the wear. -/
theorem archIssue_arch (use : NvmeUse) (addr : Nat) (data : List Byte) (s : State) : (archIssue use addr data s).arch =
    { s.arch with
      cmds := s.arch.cmds ++ [writeCmd use addr data s], nextCid := s.arch.nextCid + 1
      buckets := (archIssue use addr data s).arch.buckets, budgetHold := (archIssue use addr data s).arch.budgetHold } := by
  refine (countBytes_arch ..).trans ?_
  simp [archIssue, archCmd, writeCmd]

/-- A command that writes nothing joins the outstanding ones, and nothing else happens. -/
theorem archCmd_reads (use : NvmeUse) (addr n : Nat) (got : List Byte) (s : State) : archCmd use addr [] n got s =
    { s with arch := { s.arch with
        cmds := s.arch.cmds ++ [⟨s.arch.nextCid, use, addr, [], oneXfer s n, [], n - oneXfer s n, got, s.sys.now, false⟩]
        nextCid := s.arch.nextCid + 1 } } := by
  simp [archCmd]

/-- A command that moves no data. -/
theorem archIssue_nil (use : NvmeUse) (addr : Nat) (s : State) : archIssue use addr [] s =
    { s with arch := { s.arch with
        cmds := s.arch.cmds ++ [⟨s.arch.nextCid, use, addr, [], 0, [], 0, [], s.sys.now, false⟩]
        nextCid := s.arch.nextCid + 1 } } := by
  simp [archIssue, archCmd_reads]

/-! ### Records (R378, R382) -/

section Records

variable {s : State} {r n : Nat} {b : List Byte} {rest : List (Nat × List Byte)}

theorem archiveRecordStage_drops (hq : s.arch.inQ = (r, b) :: rest)
    (h : (r = 0 ∧ (s.arch.budgetHold = true ∨ s.arch.wearStop = true)) ∨ s.arch.mounted = false ∨ s.arch.suspended = true ∨
      r ∉ s.arch.running ∨ stagingFull r b s = true) :
    Completes .archiveRecordStage s [.arch] fun t => t.arch = { s.arch with
      inQ := rest
      dropWave := if r = 0 then satAdd 32 s.arch.dropWave 1 else s.arch.dropWave
      dropEcho := if r = 1 then satAdd 32 s.arch.dropEcho 1 else s.arch.dropEcho
      dropHist := if 2 ≤ r then satAdd 32 s.arch.dropHist 1 else s.arch.dropHist
      budgetDrop := if r = 0 ∧ (s.arch.budgetHold || s.arch.wearStop) = true then satAdd 32 s.arch.budgetDrop 1
        else s.arch.budgetDrop } := by
  have e : exec .archiveRecordStage s = .next (dropRecord r { s with arch := { s.arch with
      inQ := rest
      budgetDrop := if r = 0 ∧ (s.arch.budgetHold || s.arch.wearStop) = true then satAdd 32 s.arch.budgetDrop 1
        else s.arch.budgetDrop } }) := by
    show execArchiveRecordStage s = _
    unfold execArchiveRecordStage
    rw [hq]
    refine congrArg Host.Outcome.next ?_
    by_cases hw : r = 0 ∧ (s.arch.budgetHold || s.arch.wearStop) = true
    · simp only [if_pos hw]
      exact if_pos (by simpa using hw)
    · simp only [if_neg hw]
      refine (if_neg (by simpa using hw)).trans (if_pos ?_)
      simpa using h.resolve_left (by simpa using hw)
  refine ⟨_, e, (dropRecord_only ..).andThen (setArch_only ..), ?_⟩
  unfold dropRecord
  rcases r with _ | _ | r <;> simp

theorem fillChunks_of_room (m : Nat) (h : (ringOf s r).buf.length + b.length < chunkRoom) :
    fillChunks r (m + 1) b s =
      modRing r (fun x => { x with buf := x.buf ++ b, opened := if x.buf = [] then s.sys.now else x.opened }) s :=
  if_pos (by omega)

/-- A ring's chunk with an item at its end, which may be the first item to start in it. -/
def ringJoin (b : List Byte) (now : Nat) (x : Ring) : Ring :=
  { x with
    buf := x.buf ++ b
    first := some (x.first.getD x.buf.length)
    opened := if x.buf = [] then now else x.opened }

/-- An item for which the open chunk of the ring has room joins it, and no other ring changes. -/
theorem stageItem_of_room (hx : (ringOf s r).ext = some n) (hs : (ringOf s r).slot < 512)
    (hl : (ringOf s r).buf.length + b.length < chunkRoom) :
    ringOf (stageItem r b s) r = ringJoin b s.sys.now (ringOf s r) ∧ (∀ k, k ≠ r → ringOf (stageItem r b s) k = ringOf s k) ∧
      (stageItem r b s).arch.inQ = s.arch.inQ ∧ Only [.arch] s (stageItem r b s) := by
  have hfit : ¬ ((ringOf s r).ext.isSome = true ∧
      (512 - (ringOf s r).slot) * chunkRoom < (ringOf s r).buf.length + b.length) := fun h => by
    have : 1 * chunkRoom ≤ (512 - (ringOf s r).slot) * chunkRoom := Nat.mul_le_mul_right _ (by omega)
    omega
  have e : stageItem r b s =
      modRing r (fun x => { x with buf := x.buf ++ b, opened := if x.buf = [] then s.sys.now else x.opened })
        (modRing r (fun x => { x with first := if x.first.isNone then some x.buf.length else x.first }) s) := by
    unfold stageItem
    simp only [if_neg hfit, if_neg (show ¬ (ringOf s r).ext.isNone = true by simp [hx])]
    exact fillChunks_of_room _ (by simpa using hl)
  rw [e]
  refine ⟨?_, fun k hk => (ringOf_modRing_other hk ..).trans (ringOf_modRing_other hk ..), rfl,
    (modRing_only ..).andThen (modRing_only ..)⟩
  simp only [ringOf_modRing_same, ringJoin]
  cases (ringOf s r).first <;> rfl

theorem archiveRecordStage_joins (hq : s.arch.inQ = (r, b) :: rest)
    (hw : ¬ (r = 0 ∧ (s.arch.budgetHold = true ∨ s.arch.wearStop = true))) (hm : s.arch.mounted = true)
    (hu : s.arch.suspended = false) (hr : r ∈ s.arch.running) (hf : stagingFull r b s = false)
    (hx : (ringOf s r).ext = some n) (hs : (ringOf s r).slot < 512) (hl : (ringOf s r).buf.length + b.length < chunkRoom) :
    Completes .archiveRecordStage s [.arch] fun t => t.arch.inQ = rest ∧ ringOf t r = ringJoin b s.sys.now (ringOf s r) ∧
      ∀ k, k ≠ r → ringOf t k = ringOf s k := by
  have e : exec .archiveRecordStage s = .next (stageItem r b { s with arch := { s.arch with inQ := rest } }) := by
    show execArchiveRecordStage s = _
    unfold execArchiveRecordStage
    rw [hq]
    exact congrArg Host.Outcome.next ((if_neg (by simpa using hw)).trans (if_neg (by simp [hm, hu, hr, hf])))
  obtain ⟨hjoin, hother, hrest, honly⟩ :=
    stageItem_of_room (s := { s with arch := { s.arch with inQ := rest } }) (b := b) hx hs hl
  exact ⟨_, e, honly.andThen (setArch_only ..), hrest, hjoin, hother⟩

end Records

/-! ### Chunks, checkpoints and the health log (R378, R381, R387, R388) -/

/-- What a ring's open chunk leaves when it is written: the next slot, or the extent's end. -/
def chunkDone (n : Nat) (x : Ring) : Ring :=
  { x with ext := if x.slot = 511 then none else some n, slot := if x.slot = 511 then 0 else x.slot + 1, buf := [], first := none }

/-- The open chunk of an extent that waits for no deallocation goes to the drive at once. -/
theorem writeChunk_of_ext {s : State} {r n : Nat} (hx : (ringOf s r).ext = some n) (hd : ∀ c ∈ s.arch.cmds, c.use ≠ .dealloc n) :
    writeChunk r s = archIssue (.chunk r n (ringOf s r).slot) (n * extBytes + (ringOf s r).slot * slotBytes)
      (padLba s.arch.lba (chunkBytes s r n (ringOf s r).slot (ringOf s r).first (ringOf s r).buf)) (modRing r (chunkDone n) s) := by
  have hd' : (s.arch.cmds.any fun c => c.use == .dealloc n) = false := by simpa using hd
  unfold writeChunk
  simp only [hx, hd', Option.isNone_some, Bool.false_eq_true, if_false]
  rfl

/-- A chunk's bytes do not depend on the commands at the drive or on the wear. -/
theorem chunkBytes_of_only {s t : State} (h : Only [.irq, .arch] s t) (he : t.arch.exts = s.arch.exts) (r ext slot : Nat)
    (first : Option Nat) (pay : List Byte) : chunkBytes t r ext slot first pay = chunkBytes s r ext slot first pay := by
  have hy : t.sys = _ := h.same .sys (by decide)
  have hi : devIdx t = devIdx s := (congrArg Sys.cascId hy :)
  have hn : t.sys.frameNo = s.sys.frameNo := (congrArg Sys.frameNo hy :)
  have hh : t.sys.devtimeHeld = s.sys.devtimeHeld := (congrArg Sys.devtimeHeld hy :)
  have ho : domOn t 9 = domOn s 9 := congrArg (fun p : Pwr => p.on.contains 9) (h.same .pwr (by decide))
  have hc : devtime t = devtime s := congrArg (fun n => n / 5 % 2 ^ 64) (h.same .time (by decide)).2
  unfold chunkBytes
  rw [he, hi, hn, hh, ho, hc]

theorem chunkSealTimer_seals {s : State} {r n : Nat} (hm : s.arch.mounted = true) (hr : r < 3) (hb : (ringOf s r).buf ≠ [])
    (hx : (ringOf s r).ext = some n) (hd : ∀ c ∈ s.arch.cmds, c.use ≠ .dealloc n) :
    Completes (.chunkSealTimer r) s [.time, .arch, .irq] fun t => (ringOf t r).buf = [] ∧ (ringOf t r).first = none ∧
      t.sys.now = max s.sys.now ((ringOf s r).opened + 5000000000 * sealS (rd s)) ∧
      ∃ c, t.arch.cmds = s.arch.cmds ++ [c] ∧ c.use = .chunk r n (ringOf s r).slot ∧
        c.addr = n * 2 ^ 26 + (ringOf s r).slot * 131072 ∧
        c.data ++ c.more = padLba s.arch.lba (chunkBytes t r n (ringOf s r).slot (ringOf s r).first (ringOf s r).buf) := by
  let u := advNow ((ringOf s r).opened + ns (1000000000 * sealS (rd s))) s
  have e : exec (.chunkSealTimer r) s = .next (writeChunk r u) := congrArg Host.Outcome.next (if_pos (by simp [hm, hr, hb]))
  have only1 : Only [.irq, .arch] u (writeChunk r u) := writeChunk_only r u
  have hw := writeChunk_of_ext (s := u) hx hd
  have ha := (congrArg State.arch hw).trans (archIssue_arch ..)
  have hring : ringOf (writeChunk r u) r = chunkDone n (ringOf s r) := by
    rw [ringOf, ha]
    exact ringOf_modRing_same r (chunkDone n) u
  refine ⟨_, e, only1.andThen ((advNow_only ..).weaken (L := [.time, .arch, .irq])), by rw [hring]; rfl, by rw [hring]; rfl, ?_,
    _, (congrArg Arch.cmds ha :), rfl, rfl, ?_⟩
  · rw [(only1.same .time (by decide)).1, advNow_now]
    simp only [ns]
    omega
  · rw [chunkBytes_of_only only1 (congrArg Arch.exts ha :)]
    exact writeCmd_bytes ..

theorem checkpointTimer_begins {s : State} (hm : s.arch.mounted = true) (hu : s.arch.suspended = false) (hc : ckptBusy s = false)
    (hf : s.arch.flushing = false) : Completes .checkpointTimer s [.arch] fun t =>
      t.arch.cmds = s.arch.cmds ++ [⟨s.arch.nextCid, .flush1, 0, [], 0, [], 0, [], s.sys.now, false⟩] := by
  have e : exec .checkpointTimer s = .next (archIssue .flush1 0 [] s) :=
    congrArg Host.Outcome.next (if_pos (by simp [hm, hu, hc, hf]))
  rw [archIssue_nil] at e
  exact ⟨_, e, setArch_only .., rfl⟩

/-- A read of the health log leaves the wear counts. -/
theorem readHealth_wear (s : State) :
    (readHealth s).arch.buckets = s.arch.buckets ∧ (readHealth s).arch.budgetHold = s.arch.budgetHold := by
  unfold readHealth
  split
  · rw [archIssue_nil]
    exact ⟨rfl, rfl⟩
  · exact ⟨rfl, rfl⟩

theorem readHealth_cmds {s : State} (hm : s.arch.mounted = true) (hu : s.arch.suspended = false) :
    (readHealth s).arch.cmds = s.arch.cmds ++ [⟨s.arch.nextCid, .health, 0, [], 0, [], 0, [], s.sys.now, false⟩] := by
  rw [readHealth, if_pos (by simp [hm, hu]), archIssue_nil]

/-- The state with its wear buckets rolled. -/
def bucketsRolled (s : State) : State := { s with arch := { s.arch with buckets := 0 :: s.arch.buckets.take 23 } }

/-- The buckets roll, and a hold under 15/16 of the budget ends with its interrupt. -/
def wearRolled (s : State) : State :=
  if s.arch.budgetHold && decide (wearSum (bucketsRolled s) * 16 < 15 * wearBudget (rd s) * gib) then
    archIrq { bucketsRolled s with arch := { (bucketsRolled s).arch with budgetHold := false } }
  else bucketsRolled s

theorem wearRolled_arch (s : State) :
    (wearRolled s).arch = { (bucketsRolled s).arch with budgetHold := (wearRolled s).arch.budgetHold } := by
  unfold wearRolled
  split <;> rfl

theorem wearSum_wearRolled (s : State) : wearSum (wearRolled s) = wearSum (bucketsRolled s) := by
  unfold wearRolled
  split <;> rfl

theorem wearRolled_budgetHold (s : State) : (wearRolled s).arch.budgetHold =
    (s.arch.budgetHold && decide (15 * wearBudget (rd s) * gib ≤ wearSum (wearRolled s) * 16)) := by
  rw [wearSum_wearRolled]
  by_cases hl : wearSum (bucketsRolled s) * 16 < 15 * wearBudget (rd s) * gib
  · rw [decide_eq_false (Nat.not_le.mpr hl), Bool.and_false]
    cases hb : s.arch.budgetHold
    · simp [wearRolled, bucketsRolled, hb]
    · simp [wearRolled, hb, hl, archIrq, irq]
  · rw [decide_eq_true (Nat.not_lt.mp hl), Bool.and_true, wearRolled, if_neg (by simp [hl])]
    rfl

theorem wearRolled_only (s : State) : Only [.arch, .irq] s (wearRolled s) :=
  .ite ((archIrq_only _).andThen ((setArch_only ..).weaken)) ((setArch_only ..).weaken)

theorem healthReadTimer_rolls {s : State} (hd : domUp s 17 = true) : Completes .healthReadTimer s [.arch, .irq] fun t =>
    t.arch.buckets = 0 :: s.arch.buckets.take 23 ∧
    t.arch.budgetHold = (s.arch.budgetHold && decide (15 * wearBudget (rd s) * 2 ^ 30 ≤ wearSum t * 16)) ∧
    (s.arch.mounted = true → s.arch.suspended = false →
      t.arch.cmds = s.arch.cmds ++ [⟨s.arch.nextCid, .health, 0, [], 0, [], 0, [], s.sys.now, false⟩]) := by
  have e : exec .healthReadTimer s = .next (readHealth (wearRolled s)) := congrArg Host.Outcome.next (if_neg (by simp [hd]))
  obtain ⟨hb, hh⟩ := readHealth_wear (wearRolled s)
  have ha := wearRolled_arch s
  have hsum : wearSum (readHealth (wearRolled s)) = wearSum (wearRolled s) := congrArg (List.foldl (· + ·) 0) hb
  have hnow : (wearRolled s).sys.now = s.sys.now := ((wearRolled_only s).same .time (by decide)).1
  refine ⟨_, e, (readHealth_only ..).andThen (wearRolled_only s), hb.trans (congrArg Arch.buckets ha :),
    hh.trans ?_, fun hm hu => (readHealth_cmds ?_ ?_).trans ?_⟩
  · rw [hsum]
    exact wearRolled_budgetHold s
  · exact (congrArg Arch.mounted ha :).trans hm
  · exact (congrArg Arch.suspended ha :).trans hu
  · rw [ha, hnow]
    rfl

/-! ### Station merges (R166, R380) -/

section Merges

variable {s : State} {m : Merge} {rest : List Merge} {j : Nat}

/-- The state in which the oldest spill bound for a station stack is served. -/
def mergeTaken (rest : List Merge) (s : State) : State := { s with stk := { s.stk with merges := rest } }

theorem mergeTaken_only (rest : List Merge) (s : State) : Only [.stk] s (mergeTaken rest s) := setStk_only ..

/-- The superblock's bytes do not depend on the commands at the drive or on the wear. -/
theorem superBytes_writeSuper (use : NvmeUse) (copy : Nat) (s : State) : superBytes (writeSuper use copy s) = superBytes s := by
  have hy : (writeSuper use copy s).sys = _ := (writeSuper_only use copy s).same .sys (by decide)
  have hi : devIdx (writeSuper use copy s) = devIdx s := (congrArg Sys.cascId hy :)
  have ha : (writeSuper use copy s).arch = _ := archIssue_arch ..
  unfold superBytes
  rw [hi, ha]

/-- The next spill is served when no merge is in hand. -/
def mergeFree (s : State) : Prop :=
  s.arch.merging = none ∧ ∀ c ∈ s.arch.cmds, ∀ j n, c.use ≠ .mergeRead j n ∧ c.use ≠ .mergeWrite n

/-- The lowest slot that no station has. -/
def freeSlot (s : State) : Option Nat := (List.range s.arch.stSlots).find? fun j => (lookupNat s.arch.dir j).isNone

/-- The directory's entry of slot `j` is the station's, and the superblock takes it to the drive. -/
def slotTaken (j : Nat) (m : Merge) (s : State) : State := { s with arch := { s.arch with
  dir := tset 0xFFFFFFFF s.arch.dir j m.station, sbSeq := s.arch.sbSeq + 1, merging := some m } }

/-- What becomes of the spill that is served. -/
theorem exec_stationMerge (hq : s.stk.merges = m :: rest) (hf : mergeFree s) : exec .stationMerge s = .next (
    if s.arch.mounted = false ∨ s.arch.suspended = true then mergeDrop (mergeTaken rest s)
    else (stationSlot s m.station).elim
      ((freeSlot s).elim (flushNext (mergeDrop (mergeTaken rest s)))
        fun j => writeSuper (.superblock 0) 0 (slotTaken j m (mergeTaken rest s)))
      fun j => readPair j m (mergeTaken rest s)) := by
  obtain ⟨hi, hc⟩ := hf
  show execStationMerge s = _
  unfold execStationMerge
  rw [hq]
  refine congrArg Host.Outcome.next ((if_neg ?_).trans ?_)
  · simp only [hi, Option.isSome_none, Bool.false_or, Bool.not_eq_true, List.any_eq_false]
    intro c hcm
    split
    · next j n h => exact absurd h (hc c hcm j n).1
    · next n h => exact absurd h (hc c hcm 0 n).2
    · simp
  · by_cases hm : s.arch.mounted = false ∨ s.arch.suspended = true
    · rw [if_pos hm]
      exact if_pos (by simpa using hm)
    · rw [if_neg hm]
      refine (if_neg (by simpa using hm)).trans ?_
      cases hs : stationSlot s m.station
      · cases hf : freeSlot s
        all_goals
          unfold freeSlot at hf
          simp only [hf]
          rfl
      · rfl

theorem stationMerge_unmounted (hq : s.stk.merges = m :: rest) (hf : mergeFree s)
    (hm : s.arch.mounted = false ∨ s.arch.suspended = true) : Completes .stationMerge s [.arch, .irq, .stk] fun t =>
      t.stk = { s.stk with merges := rest, stDrop := satAdd 16 s.stk.stDrop 1 } := by
  have e := exec_stationMerge hq hf
  rw [if_pos hm] at e
  exact ⟨_, e, ((mergeDrop_only ..).andThen (mergeTaken_only ..)).weaken, rfl⟩

section Mounted

variable (hq : s.stk.merges = m :: rest) (hf : mergeFree s) (hm : ¬ (s.arch.mounted = false ∨ s.arch.suspended = true))

include hq hf hm

theorem stationMerge_reads (hs : stationSlot s m.station = some j) : Completes .stationMerge s [.arch, .stk] fun t =>
    t.stk = { s.stk with merges := rest } ∧ ∃ c, t.arch.cmds = s.arch.cmds ++ [c] ∧ c.use = .mergeRead j m ∧
      c.addr = (1 + 8 * j) * 2 ^ 26 + (128 * m.ch + m.dir) * 16384 ∧ c.len + c.left = 16384 := by
  have e := exec_stationMerge hq hf
  rw [if_neg hm, hs, Option.elim_some, readPair, archRead, archCmd_reads] at e
  exact ⟨_, e, (setArch_only ..).andThen (mergeTaken_only rest s).weaken, rfl, _, rfl, rfl, rfl,
    Nat.add_sub_cancel' (oneXfer_le ..)⟩

theorem stationMerge_full (hs : stationSlot s m.station = none) (hj : freeSlot s = none) :
    Completes .stationMerge s [.arch, .irq, .stk] fun t =>
      t.stk = { s.stk with merges := rest, stDrop := satAdd 16 s.stk.stDrop 1 } := by
  have e := exec_stationMerge hq hf
  rw [if_neg hm, hs, Option.elim_none, hj, Option.elim_none] at e
  exact ⟨_, e, (flushNext_only ..).andThen ((mergeDrop_only ..).andThen (mergeTaken_only rest s).weaken),
    (flushNext_only ..).same .stk (by decide)⟩

/-- The directory lists a new station under its slot, unless its number is the default of the directory's table. -/
theorem stationMerge_opens (hs : stationSlot s m.station = none) (hj : freeSlot s = some j) :
    Completes .stationMerge s [.arch, .irq, .stk] fun t => t.stk = { s.stk with merges := rest } ∧ t.arch.merging = some m ∧
      t.arch.sbSeq = s.arch.sbSeq + 1 ∧
      lookupNat t.arch.dir j = (if m.station = 0xFFFFFFFF then none else some m.station) ∧
      ∃ c, t.arch.cmds = s.arch.cmds ++ [c] ∧ c.use = .superblock 0 ∧ c.addr = 0 ∧ c.data ++ c.more = superBytes t := by
  have e := exec_stationMerge hq hf
  rw [if_neg hm, hs, Option.elim_none, hj, Option.elim_some] at e
  let u := slotTaken j m (mergeTaken rest s)
  have only1 : Only [.irq, .arch] u (writeSuper (.superblock 0) 0 u) := writeSuper_only ..
  have ha : (writeSuper (.superblock 0) 0 u).arch = _ := archIssue_arch ..
  refine ⟨_, e, only1.andThen ((setArch_only ..).andThen (mergeTaken_only rest s).weaken), only1.same .stk (by decide),
    (congrArg Arch.merging ha :), (congrArg Arch.sbSeq ha :), ?_, _, (congrArg Arch.cmds ha :), rfl, by simp [writeCmd], ?_⟩
  · rw [ha]
    exact lookupNat_tset_same ..
  · exact (writeCmd_bytes ..).trans (superBytes_writeSuper ..).symm

end Mounted

end Merges

/-! ### The obligation of the archive's records -/

/-- A spill whose station number is the default of the directory's table, which 16 bits of STATION cannot give. -/
def unlistedMerge : Merge := ⟨0xFFFFFFFF, 0, 0, 0, 0, 0, 0, 0, []⟩

/-- An archive mounted with one station slot, free, and that spill bound for it. -/
def unlistedState : State := { State.reset with
  arch := { Arch.reset with mounted := true, stSlots := 1 }
  stk := { Stk.reset with merges := [unlistedMerge] } }

/-- Refutes O39: the statement lets a spill's station be any number, and the directory cannot list 0xFFFFFFFF, its table's
default: such a spill is given slot 0, and the slot stays free. The theorems above prove every clause for any other station, so
also for those that the 16 bits of STATION can name. -/
theorem not_archiveRecordsFillTheirRings : ¬ Obligations.ArchiveRecordsFillTheirRings := by
  unfold Obligations.ArchiveRecordsFillTheirRings
  rintro ⟨-, -, -, hmerge, -⟩
  have hs : stationSlot unlistedState unlistedMerge.station = none := rfl
  have hj : freeSlot unlistedState = some 0 := rfl
  have hm : ¬ (unlistedState.arch.mounted = false ∨ unlistedState.arch.suspended = true) := by decide
  have hf : mergeFree unlistedState := ⟨rfl, fun c hc => nomatch hc⟩
  have said := hmerge unlistedState unlistedMerge [] rfl hf.1 hf.2
  simp only [if_neg hm, hs] at said
  obtain ⟨t, ⟨-, -, -, hlisted, -⟩, -, -, -, hfree, -⟩ := said.both (stationMerge_opens rfl hf hm hs hj)
  rw [hlisted] at hfree
  exact absurd hfree (by decide)

end Sys2Proof.Machine
end

section
/-!
SUPPORT. Calibration runs (R179-R191): what a loop over a group's inputs makes of each input, the phases of a run and their
results, dither pulses and the test steps of the GAIN phase, and the statement on them.
-/

namespace Sys2Proof.Machine

/-! ### Keyed parts of the state: a read after a change -/

@[simp] theorem calCh_modCalCh_same (c : Nat) (f : CalCh → CalCh) (s : State) : calCh (modCalCh c f s) c = f (calCh s c) :=
  tget_tset_same _

theorem calCh_modCalCh_other {c k : Nat} (h : k ≠ c) (f : CalCh → CalCh) (s : State) : calCh (modCalCh c f s) k = calCh s k :=
  tget_tset_other _ _ h

@[simp] theorem calCh_modCalGrp (g : Nat) (f : CalGrp → CalGrp) (s : State) (c : Nat) : calCh (modCalGrp g f s) c = calCh s c := rfl
@[simp] theorem calCh_modFront (k : Nat) (f : Front → Front) (s : State) (c : Nat) : calCh (modFront k f s) c = calCh s c := rfl

@[simp] theorem calGrp_modCalGrp_same (g : Nat) (f : CalGrp → CalGrp) (s : State) : calGrp (modCalGrp g f s) g = f (calGrp s g) :=
  tget_tset_same _

/-- A change that keeps a field of an input's calibration keeps it for every input. -/
theorem calCh_modCalCh_field {α : Type} {f : CalCh → CalCh} {field : CalCh → α} (hf : ∀ x, field (f x) = field x) (k c : Nat)
    (s : State) : field (calCh (modCalCh k f s) c) = field (calCh s c) := by
  by_cases h : c = k
  · subst h
    rw [calCh_modCalCh_same, hf]
  · rw [calCh_modCalCh_other h]

theorem calCh_of_cal {s t : State} (h : t.cal = s.cal) (c : Nat) : calCh t c = calCh s c :=
  congrArg (fun x : Cal => tget CalCh.reset x.chs c) h

theorem calGrp_of_grps {s t : State} (h : t.cal.grps = s.cal.grps) (g : Nat) : calGrp t g = calGrp s g :=
  congrArg (fun x => tget CalGrp.reset x g) h

@[simp] theorem logNote_cal (src kind inst : Nat) (s : State) : (logNote src kind inst s).cal = s.cal :=
  (logNote_only ..).same .cal (by decide)

@[simp] theorem fillReads_cal (s : State) : (fillReads s).cal = s.cal := (fillReads_only s).same .cal (by decide)

/-- A change of calibration's part leaves everything else. -/
theorem setCal_only (x : Cal) (s : State) : Only [.cal] s { s with cal := x } := by
  refine ⟨fun p hp => ?_⟩
  cases p
  case cal => exact absurd (.head _) hp
  all_goals simp [StatePart.same]

theorem groupChans_nodup (g : Nat) : (groupChans g).Nodup := by
  unfold groupChans upto
  split <;> exact List.Pairwise.map _ (fun _ _ hne he => hne (Nat.add_left_cancel he)) List.nodup_range

/-! ### What calibration reads of one input, and loops over a group's inputs -/

/-- What a step of calibration on input `c` reads: the input's records, the runs, and the blocks. -/
def inputView (c : Nat) (s : State) : CalCh × SampCh × Front × Tab CalGrp × Cfg :=
  (calCh s c, sampCh s c, front s c, s.cal.grps, s.cfg)

section View

variable {c : Nat} {s t : State} (h : inputView c t = inputView c s)

include h

theorem calCh_of_view : calCh t c = calCh s c := congrArg (fun v => v.1) h
theorem sampCh_of_view : sampCh t c = sampCh s c := congrArg (fun v => v.2.1) h
theorem front_of_view : front t c = front s c := congrArg (fun v => v.2.2.1) h
theorem grps_of_view : t.cal.grps = s.cal.grps := congrArg (fun v => v.2.2.2.1) h
theorem cfg_of_view : t.cfg = s.cfg := congrArg (fun v => v.2.2.2.2) h

theorem rd_of_view : rd t = rd s := by
  unfold rd
  rw [cfg_of_view h]

theorem runRd_of_view (g : Nat) : runRd t g = runRd s g := by
  unfold runRd
  rw [calGrp_of_grps (grps_of_view h), rd_of_view h]

theorem inService_of_view : inService t c = inService s c := by
  unfold inService
  rw [sampCh_of_view h]

theorem suppressed_of_view : suppressed t c = suppressed s c := by
  unfold suppressed
  rw [front_of_view h, rd_of_view h]

end View

/-- An operation made input by input leaves what calibration reads of every input but the one it is made for. -/
def KeepsOthers (f : Nat → State → State) : Prop := ∀ a c s, c ≠ a → inputView c (f a s) = inputView c s

theorem modCalCh_view {a c : Nat} (h : c ≠ a) (f : CalCh → CalCh) (s : State) : inputView c (modCalCh a f s) = inputView c s :=
  congrArg (fun x => (x, sampCh s c, front s c, s.cal.grps, s.cfg)) (calCh_modCalCh_other h f s)

theorem modSampCh_view {a c : Nat} (h : c ≠ a) (f : SampCh → SampCh) (s : State) : inputView c (modSampCh a f s) = inputView c s :=
  congrArg (fun x => (calCh s c, x, front s c, s.cal.grps, s.cfg)) (sampCh_modSampCh_other h f s)

theorem modFront_view {a c : Nat} (h : c ≠ a) (f : Front → Front) (s : State) : inputView c (modFront a f s) = inputView c s :=
  congrArg (fun x => (calCh s c, sampCh s c, x, s.cal.grps, s.cfg)) (front_modFront_other h f s)

theorem logNote_view (c src kind inst : Nat) (s : State) : inputView c (logNote src kind inst s) = inputView c s := by
  have only := logNote_only src kind inst s
  have hfronts : (logNote src kind inst s).fronts = s.fronts := only.same .fronts (by decide)
  have hcfg : (logNote src kind inst s).cfg = s.cfg := only.same .cfg (by decide)
  unfold inputView front
  rw [calCh_of_cal (logNote_cal ..), sampCh_of_samp (only.same .samp (by decide)), logNote_cal, hfronts, hcfg]

/-- What each pass of a loop keeps, the loop keeps. -/
theorem each_keeps {α β : Type} {l : List α} {f : α → State → State} {view : State → β}
    (hf : ∀ a ∈ l, ∀ t, view (f a t) = view t) (s : State) : view (each l f s) = view s := by
  induction l generalizing s with
  | nil => rfl
  | cons x r ih => exact (ih (fun a ha => hf a (.tail _ ha)) (f x s)).trans (hf x (.head _) s)

section Loop

variable {f : Nat → State → State} (hf : KeepsOthers f)

include hf

/-- A loop over distinct inputs reaches each of them once, and finds of it what stood there before the loop. -/
theorem KeepsOthers.each_reaches {l : List Nat} (hl : l.Nodup) (s : State) {c : Nat} (hc : c ∈ l) :
    ∃ t, inputView c t = inputView c s ∧ inputView c (each l f s) = inputView c (f c t) := by
  induction l generalizing s with
  | nil => cases hc
  | cons x r ih =>
    obtain ⟨hx, hr⟩ := List.nodup_cons.mp hl
    cases hc with
    | head => exact ⟨s, rfl, each_keeps (fun a ha t => hf a c t fun h => hx (h ▸ ha)) (f c s)⟩
    | tail _ hc =>
      obtain ⟨t, before, after⟩ := ih hr (f x s) hc
      exact ⟨t, before.trans (hf x c s fun h => hx (h ▸ hc)), after⟩

/-- The runs are in the view of every input, so also of one that a pass is not made for. -/
theorem KeepsOthers.each_grps (l : List Nat) (s : State) : (each l f s).cal.grps = s.cal.grps :=
  each_keeps (view := fun t => t.cal.grps) (fun a _ t => grps_of_view (hf a (a + 1) t a.succ_ne_self)) s

end Loop

/-! ### Phases of a run (R181) -/

theorem modCalCh_keepsOthers (f : Nat → CalCh → CalCh) : KeepsOthers fun c => modCalCh c (f c) :=
  fun _ _ s h => modCalCh_view h _ s

@[simp] theorem clearPhase_runPed (p : Nat) (x : CalCh) : (clearPhase p x).runPed = x.runPed := by
  unfold clearPhase
  repeat' split
  all_goals rfl

theorem enterPhase_grp (g p : Nat) (s : State) : calGrp (enterPhase g p s) g =
    if p = 0 then { calGrp s g with phase := 6, ending := true, readRes := 0, armed := false }
    else { calGrp s g with phase := p, armed := false } := by
  unfold enterPhase
  split
  · rw [calGrp_of_grps (congrArg Cal.grps (fillReads_cal _)), calGrp_modCalGrp_same]
  · rw [calGrp_modCalGrp_same, calGrp_of_grps ((modCalCh_keepsOthers fun _ => clearPhase p).each_grps ..)]

theorem enterPhase_phase (g p : Nat) (s : State) : (calGrp (enterPhase g p s) g).phase = if p = 0 then 6 else p := by
  rw [enterPhase_grp, apply_ite CalGrp.phase]

theorem enterPhase_runPed (g p : Nat) (s : State) (c : Nat) : (calCh (enterPhase g p s) c).runPed = (calCh s c).runPed := by
  unfold enterPhase
  split
  · rw [calCh_of_cal (fillReads_cal _), calCh_modCalGrp]
  · exact each_keeps (view := fun t => (calCh t c).runPed) (fun k _ t => calCh_modCalCh_field (clearPhase_runPed p) k c t) s

/-! ### The temperature read and the hold of a run (R181, R182) -/

/-- What the temperature read `tp` makes of a run that waits to start. -/
def tempTaken (tp : Int) (stale : Bool) (x : CalGrp) : CalGrp :=
  { x with tStart := some tp, tEnd := none, readRes := 0, tempHold := x.tempHold || stale }

theorem exec_calTempReadDone {s : State} {g : Nat} {tp : Int} (hg : g < 9) (hd : domUp s 18 = true) (hr : (calGrp s g).readRes ≠ 0)
    (hp : (calGrp s g).phase = 1) (hs : (calGrp s g).tStart = none) (ht : (calGrp s g).temp = some tp) :
    exec (.calTempReadDone g) s = .next (calAtOnce g (modCalGrp g (tempTaken tp ((calGrp s g).readRes == 2)) s)) := by
  refine (if_pos (decide_eq_true hg)).trans (congrArg Host.Outcome.next ((if_neg (by simp [hp, hs, hr])).trans ?_))
  refine congrArg (fun f => calAtOnce g (modCalGrp g f s)) (funext fun y => ?_)
  simp [tempTaken, hd, hp, hs, ht]

theorem refreshHeld_grp (g : Nat) (s : State) : calGrp (refreshHeld g s) g = calGrp s g :=
  calGrp_of_grps (KeepsOthers.each_grps (fun _ _ s h => modCalCh_view h _ s) ..) g

/-- A run takes hold with its start temperature, in the first of its phases or at its ending read. -/
theorem takeHold_grp (g : Nat) (s : State) : (calGrp (takeHold g s) g).hold = true ∧
    (calGrp (takeHold g s) g).tStart = (calGrp s g).tStart ∧
    (calGrp (takeHold g s) g).phase =
      if nextPhase (calGrp s g).phases 2 = 0 then 6 else nextPhase (calGrp s g).phases 2 := by
  unfold takeHold
  dsimp only
  refine ⟨?_, ?_, enterPhase_phase ..⟩
  all_goals
    rw [enterPhase_grp, calGrp_of_grps (KeepsOthers.each_grps (fun _ _ s h => modCalCh_view h _ s) ..), calGrp_modCalGrp_same]
    split <;> rfl

section TempRead

variable {s : State} {g : Nat} {tp : Int} (hg : g < 9) (hd : domUp s 18 = true) (hr : (calGrp s g).readRes ≠ 0)
  (hp : (calGrp s g).phase = 1) (hs : (calGrp s g).tStart = none) (ht : (calGrp s g).temp = some tp)

include hg hd hr hp hs ht

theorem calTempReadDone_running (hrun : running s = true) : Completes (.calTempReadDone g) s [.cal] fun t =>
    calGrp t g = tempTaken tp ((calGrp s g).readRes == 2) (calGrp s g) := by
  have e := exec_calTempReadDone hg hd hr hp hs ht
  rw [calAtOnce, if_pos (show running (modCalGrp g _ s) = true from hrun)] at e
  exact ⟨_, e, modCalGrp_only .., calGrp_modCalGrp_same ..⟩

theorem calTempReadDone_idle (hrun : running s = false) : Completes (.calTempReadDone g) s [.cal, .hk] fun t =>
    (calGrp t g).hold = true ∧ (calGrp t g).tStart = some tp ∧
    (calGrp t g).phase = if nextPhase (calGrp s g).phases 2 = 0 then 6 else nextPhase (calGrp s g).phases 2 := by
  let u := modCalGrp g (tempTaken tp ((calGrp s g).readRes == 2)) s
  have hu : calGrp u g = tempTaken tp ((calGrp s g).readRes == 2) (calGrp s g) := calGrp_modCalGrp_same ..
  have e : exec (.calTempReadDone g) s = .next (refreshHeld g (takeHold g u)) := by
    have hrun' : running u = false := hrun
    have hwaits : (calGrp u g).phase = 1 ∧ (calGrp u g).tStart.isSome := hu ▸ ⟨hp, rfl⟩
    rw [exec_calTempReadDone hg hd hr hp hs ht, calAtOnce, if_neg (Bool.eq_false_iff.mp hrun')]
    exact congrArg Host.Outcome.next (if_pos hwaits)
  have hold := takeHold_grp g u
  rw [hu] at hold
  refine ⟨_, e, (refreshHeld_only ..).andThen ((takeHold_only ..).andThen (modCalGrp_only ..).weaken), ?_⟩
  simp only [refreshHeld_grp]
  exact hold

end TempRead

/-! ### The end of a phase (R181, R186) -/

/-- What a blocked retirement makes of the channel (R75). -/
def retireBlocked (x : CalCh) : CalCh := { x with retireBlk := true }

/-- A retirement is nothing new, a change of the channel's segments, or is blocked, with a mark and a record. -/
theorem retireSeg_cases (c k : Nat) (s : State) : retireSeg c k s = s ∨ (∃ f, retireSeg c k s = modSampCh c f s) ∨
    retireSeg c k s = logNote 0x11 4 c (modCalCh c retireBlocked s) := by
  unfold retireSeg
  dsimp only
  split
  · exact .inr (.inr rfl)
  · split
    · exact .inr (.inl ⟨_, rfl⟩)
    · split
      · exact .inl rfl
      · exact .inr (.inl ⟨_, rfl⟩)

theorem retireSeg_view {a c : Nat} (h : c ≠ a) (k : Nat) (s : State) : inputView c (retireSeg a k s) = inputView c s := by
  obtain e | ⟨f, e⟩ | e := retireSeg_cases a k s <;> rw [e]
  · exact modSampCh_view h f s
  · rw [logNote_view, modCalCh_view h]

theorem retireSeg_runPed (a k c : Nat) (s : State) : (calCh (retireSeg a k s) c).runPed = (calCh s c).runPed := by
  obtain e | ⟨f, e⟩ | e := retireSeg_cases a k s <;> rw [e]
  · rfl
  · rw [calCh_of_cal (logNote_cal ..)]
    exact calCh_modCalCh_field (f := retireBlocked) (field := CalCh.runPed) (fun _ => rfl) a c s

theorem endChan_keepsOthers (g : Nat) : KeepsOthers (endChan g) := by
  intro a c s h
  have retires (p : Prop) [Decidable p] (l : List Nat) (f : CalCh → CalCh) :
      inputView c (if p then each l (retireSeg a) (modCalCh a f s) else modCalCh a f s) = inputView c s := by
    split
    · exact (each_keeps (fun k _ u => retireSeg_view h k u) _).trans (modCalCh_view h f s)
    · exact modCalCh_view h f s
  unfold endChan
  dsimp only
  split
  · exact retires ..
  · split
    · exact retires ..
    · split
      · exact modCalCh_view h ..
      · split
        · exact modCalCh_view h ..
        · rfl

theorem chanDone_ped {s : State} {g : Nat} (hp : (calGrp s g).phase = 2) (c : Nat) :
    chanDone s g c = (inService s c).all fun k => decide (pedWin (runRd s g) ≤ tget 0 (calCh s c).pedWins k) := if_pos hp

theorem chanDone_ped_of_view {s t : State} {g c : Nat} (h : inputView c t = inputView c s) (hp : (calGrp s g).phase = 2) :
    chanDone t g c = chanDone s g c := by
  have hpt : (calGrp t g).phase = 2 := (congrArg CalGrp.phase (calGrp_of_grps (grps_of_view h) g)).trans hp
  rw [chanDone_ped hpt, chanDone_ped hp, inService_of_view h, runRd_of_view h, calCh_of_view h]

/-- In PED an input with its data ends OK, one without NODATA. -/
theorem endChan_runPed {s : State} {g : Nat} (hp : (calGrp s g).phase = 2) (c : Nat) :
    (calCh (endChan g c s) c).runPed = if chanDone s g c = true then 0 else 2 := by
  have retires (l : List Nat) (t : State) : (calCh (each l (retireSeg c) t) c).runPed = (calCh t c).runPed :=
    each_keeps (view := fun t => (calCh t c).runPed) (fun k _ u => retireSeg_runPed c k c u) t
  unfold endChan
  rw [if_pos hp]
  dsimp only
  split
  · rw [retires, calCh_modCalCh_same]
  · rw [calCh_modCalCh_same]

theorem endPhase_phase (g : Nat) (s : State) : (calGrp (endPhase g s) g).phase =
    if nextPhase (calGrp s g).phases ((calGrp s g).phase + 1) = 0 then 6
    else nextPhase (calGrp s g).phases ((calGrp s g).phase + 1) := enterPhase_phase ..

theorem endPhase_runPed {s : State} {g c : Nat} (hp : (calGrp s g).phase = 2) (hc : c ∈ groupChans g) :
    (calCh (endPhase g s) c).runPed = if chanDone s g c = true then 0 else 2 := by
  obtain ⟨t, before, after⟩ := (endChan_keepsOthers g).each_reaches (groupChans_nodup g) s hc
  have hpt : (calGrp t g).phase = 2 := (congrArg CalGrp.phase (calGrp_of_grps (grps_of_view before) g)).trans hp
  calc (calCh (endPhase g s) c).runPed
    _ = (calCh (each (groupChans g) (endChan g) s) c).runPed := enterPhase_runPed ..
    _ = (calCh (endChan g c t) c).runPed := by rw [calCh_of_view after]
    _ = if chanDone s g c = true then 0 else 2 := by rw [endChan_runPed hpt, chanDone_ped_of_view before hp]

/-- A command that ends the phase completes with the next one and, from PED, with a result an input. -/
theorem completes_of_endPhase {i : Instr} {g : Nat} {s : State} (e : exec i s = .next (endPhase g s)) :
    Completes i s [.cal, .flash, .free, .hk, .irq, .log, .samp] fun t =>
      (calGrp t g).phase = (if nextPhase (calGrp s g).phases ((calGrp s g).phase + 1) = 0 then 6
        else nextPhase (calGrp s g).phases ((calGrp s g).phase + 1)) ∧
      ((calGrp s g).phase = 2 → ∀ c ∈ groupChans g, (calCh t c).runPed = if chanDone s g c = true then 0 else 2) :=
  ⟨_, e, (endPhase_only g s).weaken, endPhase_phase g s, fun hp _ hc => endPhase_runPed hp hc⟩

section PhaseEnds

variable {s : State} {g : Nat} (hg : g < 9) (h2 : 2 ≤ (calGrp s g).phase) (h5 : (calGrp s g).phase ≤ 5)

include hg h2 h5

theorem exec_calPhaseTimeout : exec (.calPhaseTimeout g) s = .next (endPhase g s) :=
  (if_pos (decide_eq_true hg)).trans (congrArg Host.Outcome.next (if_pos ⟨h2, h5⟩))

theorem exec_calPhaseComplete : exec (.calPhaseComplete g) s =
    .next (if (groupChans g).all (chanDone s g) = true then endPhase g s else s) := by
  show execCalPhaseComplete g s = _
  simp only [execCalPhaseComplete, guardObj, hg, h2, h5, decide_true, Bool.true_and, if_true]

end PhaseEnds

/-! ### Dither pulses (R185, R187) -/

/-- The state with the interval to the next pulse drawn. -/
def ditherDrawn (s : State) : State :=
  { (takeFree 16 s).2 with cal := { (takeFree 16 s).2.cal with lfsr := (takeFree 16 s).1 } }

theorem ditherDrawn_only (s : State) : Only [.cal, .free] s (ditherDrawn s) :=
  (setCal_only _ _).andThen ((takeFree_only 16 s).weaken)

/-- A pulse of group `g` would fall into a window, a gate, amber or, for the start inputs, an acceptance interval. -/
def ditherHushed (s : State) (g : Nat) : Bool :=
  if g < 8 then (groupChans g).any fun c => listening s c s.sys.cyc || amberAt s c s.sys.cyc || gated s c s.sys.cyc
  else (List.range 4).any fun i => accepting s i s.sys.cyc

theorem ditherHushed_iff {s : State} {g : Nat} (hg : g < 9) : ditherHushed s g = true ↔
    (g < 8 ∧ ∃ c ∈ groupChans g, (listening s c s.sys.cyc || amberAt s c s.sys.cyc || gated s c s.sys.cyc) = true) ∨
    (g = 8 ∧ ∃ i ∈ List.range 4, accepting s i s.sys.cyc = true) := by
  unfold ditherHushed
  split
  · next h => simp [h, Nat.ne_of_lt h]
  · next h => simp [show g = 8 by omega]

/-- A pulse counts against an input that may hear it, and at `limit` declares it stuck low, with a record. -/
def countPulse (limit c : Nat) (s : State) : State :=
  if suppressed s c ∨ (calCh s c).runStuck then s
  else if limit ≤ (calCh s c).quiet + 1 then
    logNote 0x11 4 c (modCalCh c (fun x => { x with quiet := 0, stuckLow := true, runStuck := true }) s)
  else modCalCh c (fun x => { x with quiet := x.quiet + 1 }) s

theorem countPulse_only (limit c : Nat) (s : State) : Only [.cal, .flash, .free, .irq, .log] s (countPulse limit c s) :=
  .ite (.refl ..) (.ite ((logNote_only ..).andThen (modCalCh_only ..).weaken) (modCalCh_only ..).weaken)

theorem countPulse_keepsOthers (limit : Nat) : KeepsOthers (countPulse limit) := by
  intro a c s h
  unfold countPulse
  split
  · rfl
  · split
    · rw [logNote_view, modCalCh_view h]
    · exact modCalCh_view h ..

theorem countPulse_calCh (limit c : Nat) (s : State) : calCh (countPulse limit c s) c =
    if suppressed s c = true ∨ (calCh s c).runStuck = true then calCh s c
    else if limit ≤ (calCh s c).quiet + 1 then { calCh s c with quiet := 0, stuckLow := true, runStuck := true }
    else { calCh s c with quiet := (calCh s c).quiet + 1 } := by
  unfold countPulse
  split
  · rfl
  · split
    · rw [calCh_of_cal (logNote_cal ..), calCh_modCalCh_same]
    · exact calCh_modCalCh_same ..

section FreePulse

variable {s : State} {g : Nat} (hg : g < 9) (hp : (calGrp s g).phase = 3) (he : ditherEn (runRd s g) = true)

include hg hp he

theorem exec_ditherFreePulse : exec (.ditherFreePulse g) s = .next (if ditherHushed s g = true then ditherDrawn s
    else each (groupChans g) (countPulse (stuckPulses (runRd s g) * 16)) (ditherDrawn s)) :=
  (if_pos (decide_eq_true hg)).trans (congrArg Host.Outcome.next (if_neg (by simp [hp, he])))

theorem ditherFreePulse_hushed (hh : ditherHushed s g = true) : Completes (.ditherFreePulse g) s [.cal, .free] fun t =>
    t.cal = { s.cal with lfsr := t.cal.lfsr } := by
  have e := exec_ditherFreePulse hg hp he
  rw [if_pos hh] at e
  exact ⟨_, e, ditherDrawn_only s, rfl⟩

theorem ditherFreePulse_counts (hh : ¬ ditherHushed s g = true) :
    Completes (.ditherFreePulse g) s [.cal, .flash, .free, .irq, .log] fun t => ∀ c ∈ groupChans g,
      calCh t c = if suppressed s c = true ∨ (calCh s c).runStuck = true then calCh s c
        else if stuckPulses (runRd s g) * 16 ≤ (calCh s c).quiet + 1 then
          { calCh s c with quiet := 0, stuckLow := true, runStuck := true }
        else { calCh s c with quiet := (calCh s c).quiet + 1 } := by
  have e := exec_ditherFreePulse hg hp he
  rw [if_neg hh] at e
  refine ⟨_, e, .each (countPulse_only _) (ditherDrawn_only s).weaken, fun c hc => ?_⟩
  obtain ⟨t, before, after⟩ := (countPulse_keepsOthers _).each_reaches (groupChans_nodup g) (ditherDrawn s) hc
  have hs : inputView c t = inputView c s := before
  rw [calCh_of_view after, countPulse_calCh, suppressed_of_view hs, calCh_of_view hs]

end FreePulse

theorem ditherGatedPulse_unarms {g : Nat} (hg : g < 9) (s : State) : Completes (.ditherGatedPulse g) s [.cal] fun t =>
    calGrp t g = { calGrp s g with armed := false } ∧ ∀ c, calCh t c = calCh s c :=
  ⟨_, if_pos (decide_eq_true hg), modCalGrp_only .., calGrp_modCalGrp_same .., fun _ => rfl⟩

/-! ### Test steps of the GAIN phase while no frames run (R189) -/

/-- Step 0 on an input: the next range of the cycle, unless a test range is in force. -/
def intoTestRange (c : Nat) (s : State) : State :=
  if (calCh s c).testR.isSome then s
  else modFront c (fun y => { y with range := (calCh s c).tests % 3 })
    (modCalCh c (fun y => { y with testR := some (front s c).range, tests := y.tests + 1 }) s)

theorem intoTestRange_only (c : Nat) (s : State) : Only [.cal, .fronts] s (intoTestRange c s) :=
  .ite (.refl ..) ((modFront_only ..).andThen (modCalCh_only ..).weaken)

theorem intoTestRange_keepsOthers : KeepsOthers intoTestRange := by
  intro a c s h
  unfold intoTestRange
  split
  · rfl
  · rw [modFront_view h, modCalCh_view h]

theorem intoTestRange_applies {c : Nat} {s : State} (h : (calCh s c).testR = none) :
    (front (intoTestRange c s) c).range = (calCh s c).tests % 3 ∧
    (calCh (intoTestRange c s) c).testR = some (front s c).range ∧
    (calCh (intoTestRange c s) c).tests = (calCh s c).tests + 1 := by
  rw [intoTestRange, if_neg (by rw [h]; decide)]
  simp

/-- Step 2 on an input: the second range of the pair. -/
def secondRange (c : Nat) : State → State := modFront c fun y => { y with range := min 3 (y.range + 1) }

/-- Step 3 on an input: the range from before the test. -/
def restoreRange (c : Nat) (s : State) : State :=
  match (calCh s c).testR with
  | some r => modFront c (fun y => { y with range := r }) (modCalCh c (fun y => { y with testR := none }) s)
  | none => s

theorem restoreRange_of_some {c r : Nat} {s : State} (h : (calCh s c).testR = some r) : restoreRange c s =
    modFront c (fun y => { y with range := r }) (modCalCh c (fun y => { y with testR := none }) s) := by
  rw [restoreRange, h]

theorem restoreRange_of_none {c : Nat} {s : State} (h : (calCh s c).testR = none) : restoreRange c s = s := by
  rw [restoreRange, h]

theorem restoreRange_only (c : Nat) (s : State) : Only [.cal, .fronts] s (restoreRange c s) := by
  cases h : (calCh s c).testR with
  | none =>
    rw [restoreRange_of_none h]
    exact .refl ..
  | some r =>
    rw [restoreRange_of_some h]
    exact (modFront_only ..).andThen (modCalCh_only ..).weaken

theorem restoreRange_keepsOthers : KeepsOthers restoreRange := by
  intro a c s hc
  cases h : (calCh s a).testR with
  | none => rw [restoreRange_of_none h]
  | some r => rw [restoreRange_of_some h, modFront_view hc, modCalCh_view hc]

/-- The parks of step 1: one for each input in a test range, in the next slot. -/
def testParks (g : Nat) (s : State) : List (Nat × Nat × Option Nat) :=
  ((groupChans g).filter fun c => (calCh s c).testR.isSome).map fun c => (c, s.sys.cyc / 16 + 1, none)

section GainTest

variable {s : State} {g : Nat} (hg : g < 8) (hp : (calGrp s g).phase = 4) (hr : running s = false)

include hg hp hr

theorem exec_gainTestStep (step : Nat) : exec (.gainTestStep g step) s = .next (
    if step = 0 then each (groupChans g) intoTestRange s
    else if step = 1 then modCalGrp g (fun x => { x with armed := true }) (askPulses (testParks g s) s)
    else if step = 2 then each (groupChans g) secondRange s
    else each (groupChans g) restoreRange s) := by
  refine (if_pos (decide_eq_true hg)).trans (congrArg Host.Outcome.next ((if_neg (by simp [hp, hr])).trans ?_))
  simp only [hr, testRangeOf, Bool.false_eq_true, not_false_eq_true, and_true, false_and, or_false, if_false]
  rfl

theorem gainTestStep_applies : Completes (.gainTestStep g 0) s [.cal, .fronts] fun t => ∀ c ∈ groupChans g,
    (calCh s c).testR = none → (front t c).range = (calCh s c).tests % 3 ∧ (calCh t c).testR = some (front s c).range ∧
      (calCh t c).tests = (calCh s c).tests + 1 := by
  refine ⟨each (groupChans g) intoTestRange s, exec_gainTestStep hg hp hr 0, .each intoTestRange_only (.refl ..),
    fun c hc hn => ?_⟩
  obtain ⟨t, before, after⟩ := intoTestRange_keepsOthers.each_reaches (groupChans_nodup g) s hc
  rw [front_of_view after, calCh_of_view after, ← calCh_of_view before, ← front_of_view before]
  exact intoTestRange_applies ((congrArg CalCh.testR (calCh_of_view before)).trans hn)

theorem gainTestStep_arms : Completes (.gainTestStep g 1) s [.cal, .samp] fun t => (calGrp t g).armed = true ∧
    t.samp.calReqs = s.samp.calReqs ++ testParks g s :=
  ⟨_, exec_gainTestStep hg hp hr 1, (modCalGrp_only ..).andThen (askPulses_only ..).weaken,
    congrArg CalGrp.armed (calGrp_modCalGrp_same ..), rfl⟩

theorem gainTestStep_second : Completes (.gainTestStep g 2) s [.fronts] fun t => ∀ c ∈ groupChans g,
    (front t c).range = min 3 ((front s c).range + 1) := by
  refine ⟨each (groupChans g) secondRange s, exec_gainTestStep hg hp hr 2,
    .each (fun c t => modFront_only c _ t) (.refl ..), fun c hc => ?_⟩
  have keeps : KeepsOthers secondRange := fun _ _ s h => modFront_view h _ s
  obtain ⟨t, before, after⟩ := keeps.each_reaches (groupChans_nodup g) s hc
  rw [front_of_view after, ← front_of_view before]
  exact congrArg Front.range (front_modFront_same ..)

theorem gainTestStep_restores : Completes (.gainTestStep g 3) s [.cal, .fronts] fun t => ∀ c ∈ groupChans g, ∀ r,
    (calCh s c).testR = some r → (front t c).range = r ∧ (calCh t c).testR = none := by
  refine ⟨each (groupChans g) restoreRange s, exec_gainTestStep hg hp hr 3, .each restoreRange_only (.refl ..),
    fun c hc r hs => ?_⟩
  obtain ⟨t, before, after⟩ := restoreRange_keepsOthers.each_reaches (groupChans_nodup g) s hc
  have ht : (calCh t c).testR = some r := (congrArg CalCh.testR (calCh_of_view before)).trans hs
  rw [front_of_view after, calCh_of_view after, restoreRange_of_some ht]
  simp

end GainTest

/-! ### The obligation of the calibration runs -/

/-- Settles O40: a loop over a group's inputs reaches each input once and finds what stood there before the command, so each
clause follows from what one pass does to one input, and from what the command does to its group. -/
theorem calibrationRunsGoThroughTheirPhases : Obligations.CalibrationRunsGoThroughTheirPhases := by
  unfold Obligations.CalibrationRunsGoThroughTheirPhases
  refine ⟨?tempRead, ?phaseEnd, ?freePulse, fun s _ hg => ditherGatedPulse_unarms hg s, ?gainTest⟩
  case tempRead =>
    intro s g tp hg hd hr hp hs ht
    split
    · next hrun => exact calTempReadDone_running hg hd hr hp hs ht hrun
    · next hrun => exact calTempReadDone_idle hg hd hr hp hs ht (Bool.eq_false_iff.mpr hrun)
  case phaseEnd =>
    intro s g hg h2 h5
    refine ⟨completes_of_endPhase (exec_calPhaseTimeout hg h2 h5), ?_⟩
    have e := exec_calPhaseComplete hg h2 h5
    split
    · next hall => exact completes_of_endPhase (e.trans (congrArg Host.Outcome.next (if_pos hall)))
    · next hall => exact e.trans (congrArg Host.Outcome.next (if_neg hall))
  case freePulse =>
    intro s g hg hp he now
    split
    · next hh => exact ditherFreePulse_hushed hg hp he ((ditherHushed_iff hg).mpr hh)
    · next hh => exact ditherFreePulse_counts hg hp he (mt (ditherHushed_iff hg).mp hh)
  case gainTest =>
    intro s g hg hp hr
    exact ⟨gainTestStep_applies hg hp hr, gainTestStep_arms hg hp hr, gainTestStep_second hg hp hr,
      gainTestStep_restores hg hp hr⟩

end Sys2Proof.Machine
end
